-- ==== Sys2Proof/Word.lean ====
section
/-! DEFINITION. The plain word types: a byte of a frame, buffer or 8-bit register, and the widest
register a host access carries (`00_scope.md` R5, `10_state.md` R12, R26). -/

namespace Sys2Proof

/-- An unsigned 8-bit value (R5). -/
abbrev Byte := BitVec 8

/-- What one host register access carries: the widest register has 32 bits (R12, R20, R21). -/
abbrev BusWord := BitVec 32

end Sys2Proof
end

