-- ==== Sys2Proof/Config.lean ====
section
/-! DEFINITION. What is fixed for one machine: the constants of `00_scope.md` R3, the open parameters of
R4, and the free values (what a buffer element holds before anything has written it, `10_state.md` R30,
`93_implementation_defined.md` U8, U14). -/

namespace Sys2Proof.Config

/-- Bytes in a command frame and in an acknowledgment (R3). -/
abbrev frameLen : Nat := 12
/-- Index of the error code in the acknowledgment (R3, R110). -/
abbrev ackErrIdx : Nat := 2
/-- Empty wait windows before ProtocolTimeout (R3, R140). -/
abbrev ackRetryBudget : Nat := 5
/-- Bytes of one directory entry (R3, R78). -/
abbrev dirStride : Nat := 12
/-- Bytes of one template slot (R3). -/
abbrev slot : Nat := 800
/-- Offset of the length field in a source hash (R3, R76). -/
abbrev lenOff : Nat := 8
/-- Fill of the trailing record bytes (R3). -/
abbrev padVal : Byte := 0xFF
/-- Trailing bytes of a template record (R74, R75). -/
abbrev recTail : Nat := 12
/-- Size of a Format A record, and of TBUF (R3, R23). -/
abbrev recA : Nat := 1616
/-- Size of a Format B record (R3). -/
abbrev recB : Nat := 816
/-- Size of HBUF (R23). -/
abbrev hbufSize : Nat := 1600
/-- Size of IBUF (R23). -/
abbrev ibufSize : Nat := 19800
/-- Number of bits of DIRMAP (R23). -/
abbrev dirSize : Nat := 10000
/-- Rows of a half-size image (R3). -/
abbrev halfRows : Nat := 150
/-- Bytes of an input row (R3). -/
abbrev halfInW : Nat := 130
/-- Bytes of an output row (R3). -/
abbrev halfOutW : Nat := 132
/-- Bytes of a half-size image as received, 150 rows of 130 (R80). -/
abbrev halfInSize : Nat := 19500
/-- Largest user id, and last id the free-id search looks at (R3, R165, R203). -/
abbrev idBound : Nat := 9999
/-- The free-id search's "not found" (R3, R203). -/
abbrev notFound : Nat := 10000

end Sys2Proof.Config

namespace Sys2Proof

/-- The ten device error kinds (`60_exceptions.md` R232). -/
inductive ErrorKind where
  | timeout | dbFull | dbEmpty | alreadyRegistered | registerFailed
  | flashWrite | userNotFound | identifyFailed | invalidRecord | insufficientData
deriving DecidableEq, Repr

/-- The position of a kind in R232's table; only a place in a list, not a code. -/
def ErrorKind.index : ErrorKind → Fin 10
  | .timeout => 0
  | .dbFull => 1
  | .dbEmpty => 2
  | .alreadyRegistered => 3
  | .registerFailed => 4
  | .flashWrite => 5
  | .userNotFound => 6
  | .identifyFailed => 7
  | .invalidRecord => 8
  | .insufficientData => 9

/-- ERRKIND: an injective map from the ten kinds to non-zero bytes, as the bytes of the kinds in the order
of R232's table (R4, R232). The default only shows that such a map exists; it is no claim about the device
(assumption log 5). -/
structure ErrKindMap where
  /-- The byte of each kind. -/
  bytes : Vector Byte 10 := #v[1, 2, 3, 4, 5, 6, 7, 8, 9, 10]
  /-- Injective, and 0x00 is no kind (R4). -/
  lawful : bytes.toList.Nodup ∧ ∀ b ∈ bytes.toList, b ≠ 0 := by decide
deriving DecidableEq, Repr, Inhabited

/-- The open parameters of R4, fixed when the block is built. Each field can hold exactly the values its
constraint admits, so that no claim needs the constraint as a premise: a window length is stored as its
excess over 1, PBUF_CAP as its excess over 119988, and ERRKIND with the proof that it is lawful
(assumption log 5). -/
structure Params where
  /-- P1_LO_IDX of ACKMAP (R4, R73). -/
  ackP1Lo : Fin 12
  /-- P1_HI_IDX of ACKMAP. -/
  ackP1Hi : Fin 12
  /-- P2_LO_IDX of ACKMAP. -/
  ackP2Lo : Fin 12
  /-- P2_HI_IDX of ACKMAP. -/
  ackP2Hi : Fin 12
  /-- ERRKIND. No rule of FPC reads it (R232). -/
  errKind : ErrKindMap
  /-- RX_WINDOW_TICKS - 1. -/
  rxWindowPred : Fin 4294967295
  /-- WRITE_TIMEOUT_TICKS - 1. -/
  writeTimeoutPred : Fin 4294967295
  /-- PBUF_CAP - 119988. -/
  pbufExtra : Nat
  /-- HAS_PRESENCE. -/
  hasPresence : Bool
deriving DecidableEq, Repr, Inhabited

/-- RX_WINDOW_TICKS, at least 1 (R4). -/
def Params.rxWindowTicks (p : Params) : Nat := p.rxWindowPred.val + 1

/-- WRITE_TIMEOUT_TICKS, at least 1 (R4). -/
def Params.writeTimeoutTicks (p : Params) : Nat := p.writeTimeoutPred.val + 1

/-- PBUF_CAP, at least 119988 (R4). -/
def Params.pbufCap (p : Params) : Nat := 119988 + p.pbufExtra

/-- The byte ERRKIND gives a kind (R232). -/
def Params.errByte (p : Params) (k : ErrorKind) : Byte := p.errKind.bytes[k.index]

/-- The parameters of the block as built: open, so nothing can be proved of their values (R4). -/
opaque Config.build : Params

/-- What element `index` of buffer `space` holds, after the `epoch`-th Reset, until something writes it:
any value (R30, U8, U14). -/
opaque Config.unwrittenByte (epoch space index : Nat) : Byte

/-- What DIRMAP bit `index` holds, after the `epoch`-th Reset, until DECDIR: any value (R30, U14). -/
opaque Config.unwrittenBit (epoch index : Nat) : Bool

end Sys2Proof
end

