-- ==== Sys2Proof/Syntax.lean ====
section
/-! DEFINITION. The instructions: one constructor for each row of `spec/opcode_table.json`. The first
eleven are the device commands, written as the 12-byte command frame that sends them
(`30_encoding.md` R70, R82); the last eight are the host operations, written as the CTRL write that
starts them (`10_state.md` R16, `30_encoding.md` R90). -/

namespace Sys2Proof

/-- The operand bytes of a command frame: frame byte 0 (the channel) and frame bytes 2 to 9 (the four
two-byte fields, each low byte first) (R70, R71). The reserved byte and the checksum byte are no
operands. -/
structure FrameArgs where
  channel : Byte
  p1l : Byte
  p1h : Byte
  p2l : Byte
  p2h : Byte
  eal : Byte
  eah : Byte
  ebl : Byte
  ebh : Byte
deriving DecidableEq, Repr

/-- The eleven device commands of `30_encoding.md` R82, in the table's order. -/
inductive Command where
  | baud | status | enrollStart | enrollFinish | delete | verify | identify
  | getImage | putTemplate | getTemplate | list
deriving DecidableEq, Repr

/-- The instruction set: one constructor for each row of the opcode table, in the table's order. -/
inductive Instr where
  | baud (a : FrameArgs)
  | status (a : FrameArgs)
  | enrollStart (a : FrameArgs)
  | enrollFinish (a : FrameArgs)
  | delete (a : FrameArgs)
  | verify (a : FrameArgs)
  | identify (a : FrameArgs)
  | getImage (a : FrameArgs)
  | putTemplate (a : FrameArgs)
  | getTemplate (a : FrameArgs)
  | list (a : FrameArgs)
  | build
  | run
  | id2b
  | decack
  | enctpl
  | decdir
  | nextfree
  | flipimg
deriving DecidableEq, Repr

end Sys2Proof
end

