-- ==== Sys2Proof/WellFormed.lean ====
section
/-! DEFINITION. What is checked of an instruction and of an instruction word before it means anything.
An `Instr` term is built from bytes alone, and every byte value is a legal operand
(`44_device_facade.md` R204), so every term is well formed. What can be ill formed is a WORD: the checks
on it stand here one by one (the checksum check stands with the checksum, in Decode). -/

namespace Sys2Proof

/-- Every operand of every instruction is a byte the host supplies and FPC places unchanged
(`30_encoding.md` R71, R204), so no term is refused. -/
def Instr.wellFormed : Instr → Bool
  | .baud _ | .status _ | .enrollStart _ | .enrollFinish _ | .delete _ | .verify _ | .identify _
  | .getImage _ | .putTemplate _ | .getTemplate _ | .list _ => true
  | .build | .run | .id2b | .decack | .enctpl | .decdir | .nextfree | .flipimg => true

/-- An instruction word is a CTRL write (two bytes, R16) or a command frame (twelve bytes, R70). -/
def wordLengthOk (w : List Byte) : Bool := w.length == 2 || w.length == 12

/-- Frame byte 10 is always 0x00 (R70, R84). -/
def reservedByteOk (w : List Byte) : Bool := w.getD 10 0 == 0

/-- CTRL bit 8, START, is 1 in a write that starts an operation (R16). -/
def startBitOk (w : List Byte) : Bool := (w.getD 1 0).getLsbD 0

/-- CTRL bits 3:0, OP, name one of the eight operations (R90); 0 and 9 to 15 are not assigned (R84). -/
def opAssigned (w : List Byte) : Bool :=
  let op := ((w.getD 0 0).extractLsb' 0 4).toNat
  1 ≤ op && op ≤ 8

end Sys2Proof
end

