-- ==== Sys2Proof/Decode.lean ====
section
/-! DEFINITION. The decoder of instruction words, total on any bytes, and after it the encoder
(`30_encoding.md` R70, R71, R82 to R84, R90; `10_state.md` R16; `40_frame_codec.md` R101). -/

namespace Sys2Proof

/-- `csum(bytes)`: the sum of the bytes modulo 256 (R7, R101). -/
def checksum (bytes : List Byte) : Byte := BitVec.ofNat 8 ((bytes.map BitVec.toNat).sum)

/-- Frame bytes 2 to 9 in frame order (R70). -/
def FrameArgs.params (a : FrameArgs) : List Byte :=
  [a.p1l, a.p1h, a.p2l, a.p2h, a.eal, a.eah, a.ebl, a.ebh]

/-- The 12-byte command frame: channel, command, the eight parameter and extra bytes, the reserved
0x00 and the checksum over bytes 1 to 9 (R70, R100). -/
def frameBytes (cmd : Byte) (a : FrameArgs) : List Byte :=
  [a.channel, cmd, a.p1l, a.p1h, a.p2l, a.p2h, a.eal, a.eah, a.ebl, a.ebh, 0x00, checksum (cmd :: a.params)]

/-- The last byte of a frame is the checksum over its bytes 1 to 9 (R70, R102). -/
def checksumOk (w : List Byte) : Bool := w.getD 11 0 == checksum ((w.drop 1).take 9)

/-- What R102 says of every frame FPC writes: length 12, byte 10 zero, byte 11 the checksum. -/
def frameLawful (w : List Byte) : Bool := w.length == 12 && reservedByteOk w && checksumOk w

/-- The command byte of each device command (R82). -/
def Command.byte : Command → Byte
  | .baud => 0x21
  | .status => 0x30
  | .enrollStart => 0x50
  | .enrollFinish => 0x51
  | .delete => 0x54
  | .verify => 0x55
  | .identify => 0x56
  | .getImage => 0x43
  | .putTemplate => 0x71
  | .getTemplate => 0x73
  | .list => 0x7D

/-- The device command a command byte selects; none for the other 245 byte values (R82, R84). -/
def Command.ofByte (b : Byte) : Option Command :=
  if b = 0x21 then some .baud
  else if b = 0x30 then some .status
  else if b = 0x50 then some .enrollStart
  else if b = 0x51 then some .enrollFinish
  else if b = 0x54 then some .delete
  else if b = 0x55 then some .verify
  else if b = 0x56 then some .identify
  else if b = 0x43 then some .getImage
  else if b = 0x71 then some .putTemplate
  else if b = 0x73 then some .getTemplate
  else if b = 0x7D then some .list
  else none

/-- The instruction that sends a command with given operands. -/
def Command.instr (c : Command) (a : FrameArgs) : Instr :=
  match c with
  | .baud => .baud a
  | .status => .status a
  | .enrollStart => .enrollStart a
  | .enrollFinish => .enrollFinish a
  | .delete => .delete a
  | .verify => .verify a
  | .identify => .identify a
  | .getImage => .getImage a
  | .putTemplate => .putTemplate a
  | .getTemplate => .getTemplate a
  | .list => .list a

/-- Why a word is no instruction. -/
inductive DecodeError where
  /-- Neither a CTRL write (2 bytes) nor a frame (12 bytes). -/
  | badLength (n : Nat)
  /-- CTRL written with START = 0: no operation is started (R16). -/
  | startNotSet
  /-- OP 0 or 9 to 15 (R84, R201). -/
  | illegalOp (op : BitVec 4)
  /-- Frame byte 10 is not 0x00 (R70, R84). -/
  | reservedNotZero (b : Byte)
  /-- Frame byte 11 is not the checksum (R70). -/
  | checksumMismatch (b : Byte)
  /-- A lawful frame whose command byte is not among the eleven (R84). -/
  | unknownCommand (cmd : Byte) (a : FrameArgs)
deriving DecidableEq, Repr

/-- The host operation an OP number selects (R90). -/
def decodeOp (op : BitVec 4) : Except DecodeError Instr :=
  if op = 1 then .ok .build
  else if op = 2 then .ok .run
  else if op = 3 then .ok .id2b
  else if op = 4 then .ok .decack
  else if op = 5 then .ok .enctpl
  else if op = 6 then .ok .decdir
  else if op = 7 then .ok .nextfree
  else if op = 8 then .ok .flipimg
  else .error (.illegalOp op)

/-- A CTRL write: `lo` holds bits 7:0 (OP in bits 3:0), `hi` bits 15:8 (START in bit 8). The other
bits are read by nothing (R16). -/
def decodeCtrl (lo hi : Byte) : Except DecodeError Instr :=
  if hi.getLsbD 0 then decodeOp (lo.extractLsb' 0 4) else .error .startNotSet

/-- A command frame: the reserved byte and the checksum are checked, then byte 1 alone selects the
command (R82, R83). -/
def decodeFrame (cmd : Byte) (a : FrameArgs) (reserved sum : Byte) : Except DecodeError Instr :=
  if reserved ≠ 0 then .error (.reservedNotZero reserved)
  else if sum ≠ checksum (cmd :: a.params) then .error (.checksumMismatch sum)
  else match Command.ofByte cmd with
    | some c => .ok (c.instr a)
    | none => .error (.unknownCommand cmd a)

/-- The decoder: total on any bytes, every rejection by name. -/
def decode (w : List Byte) : Except DecodeError Instr :=
  match w with
  | [lo, hi] => decodeCtrl lo hi
  | [ch, cmd, b2, b3, b4, b5, b6, b7, b8, b9, reserved, sum] =>
    decodeFrame cmd ⟨ch, b2, b3, b4, b5, b6, b7, b8, b9⟩ reserved sum
  | w => .error (.badLength w.length)

/-- The CTRL write that starts operation `op`: OP in bits 3:0, START in bit 8 (R16). -/
def ctrlBytes (op : BitVec 4) : List Byte := [op.setWidth 8, 0x01]

/-- The encoder: the bytes of an instruction, frame byte 0 or CTRL bits 7:0 first. -/
def encode : Instr → List Byte
  | .baud a => frameBytes 0x21 a
  | .status a => frameBytes 0x30 a
  | .enrollStart a => frameBytes 0x50 a
  | .enrollFinish a => frameBytes 0x51 a
  | .delete a => frameBytes 0x54 a
  | .verify a => frameBytes 0x55 a
  | .identify a => frameBytes 0x56 a
  | .getImage a => frameBytes 0x43 a
  | .putTemplate a => frameBytes 0x71 a
  | .getTemplate a => frameBytes 0x73 a
  | .list a => frameBytes 0x7D a
  | .build => ctrlBytes 1
  | .run => ctrlBytes 2
  | .id2b => ctrlBytes 3
  | .decack => ctrlBytes 4
  | .enctpl => ctrlBytes 5
  | .decdir => ctrlBytes 6
  | .nextfree => ctrlBytes 7
  | .flipimg => ctrlBytes 8

/-- Byte `i` of the number `w`: bits 8i+7 to 8i (R83). -/
def byteOf (w i : Nat) : Byte := BitVec.ofNat 8 (w >>> (8 * i))

/-- Bytes 0 to n-1 of the number `w`. -/
def bytesOf (w n : Nat) : List Byte := (List.range n).map (byteOf w)

/-- The bytes of an opcode-table word. Each row of the table carries, beside its mask, a constraint that
the mask cannot express: START = 1 for a host operation, byte 11 = the checksum for a frame (R83 and the
rows' `constraint`). The word is completed by its row's constraint here (assumption log 3). -/
def tableBytes (nbits w : Nat) : List Byte :=
  if nbits ≤ 16 then [byteOf w 0, byteOf w 1 ||| 0x01]
  else bytesOf w 11 ++ [checksum ((bytesOf w 10).drop 1)]

/-- The instruction the decoder reads from an opcode-table word (the host's question). -/
def decodeTableWord (nbits w : Nat) : Option Instr :=
  match decode (tableBytes nbits w) with
  | .ok i => some i
  | .error _ => none

end Sys2Proof
end

