-- ==== Sys2Proof/Machine/State.lean ====
section
/-! DEFINITION. The machine's state: every piece of state of `10_state.md` (R10 to R27), the two logs of
R24, and four fields of the model's own (the static parameters, the port log, the reset count behind the
free values, and the queue of pending environment events). The file also declares what a step can stop
with. -/

namespace Sys2Proof.Machine

/-- The sequencer state ST (R14). The codes 6 and 7 are never held, so the type has six values. -/
inductive SeqState where
  | idle | configuring | sending | awaitingAck | awaitingPayload | failed
deriving DecidableEq, Repr

/-- RESULT.CLASS (R230). Class 7 is never produced. -/
inductive ResultClass where
  | ok | transportOpenFailed | transportWriteTimeout | protocolTimeout | deviceError
  | payloadTimeout | illegalRequest
deriving DecidableEq, Repr

/-- The four event kinds of EVT (R19, R241). -/
inductive EvKind where
  | done | deverr | timeout | presence
deriving DecidableEq, Repr

/-- The line settings that go with an open request: data bits, parity, stop bits, flow control (R33,
R130). -/
structure LineSettings where
  dataBits : Nat
  parity : Bool
  stopBits : Nat
  flowControl : Bool
deriving DecidableEq, Repr

/-- What FPC puts on a port (R33). `readData` is the value a host read returns on the host interface. -/
inductive Pulse where
  | tpOpenReq (baud : BitVec 32) (line : LineSettings)
  | tpClearError
  | txData (b : Byte)
  | tpClose
  | evtDeverr (code : Byte)
  | evtTimeout
  | evtPresence
  | readData (v : BusWord)
deriving DecidableEq, Repr

/-- The six byte buffers of R23 (DIRMAP, the seventh, holds bits and is kept apart). -/
inductive Buf where
  | txf | ack | pbuf | hbuf | tbuf | ibuf
deriving DecidableEq, Repr

/-- A byte buffer: the bytes something has written, as (index, byte) pairs with strictly rising indices.
An unlisted index has no value of its own; what a read of it gives is in `State.byteAt`. -/
abbrev Memory := List Host.Cell

/-- An environment event (R5): what the host, the transport, the timebase, the presence source or the
reset input does. A CTRL write with START = 1 is the event HostStart (R16). `hostCommand` is the host's
issuing of one device command: the ten operand writes its frame spells and the start of RUN, back to back
(`30_encoding.md` R92, assumption log 1). A received chunk is non-empty by construction (R137). -/
inductive EnvEvent where
  | hostWrite (reg : Nat) (value : BusWord)
  | hostBufWrite (space index : Nat) (value : Byte)
  | hostRead (reg : Nat)
  | hostBufRead (space index : Nat)
  | hostCommand (frame : Vector Byte 12)
  | tpOpenOk
  | tpOpenFail
  | txWritten
  | rxChunk (first : Byte) (rest : List Byte)
  | tick
  | presenceEdge
  | reset
deriving DecidableEq, Repr

/-- Why the machine stops with a fault. -/
inductive Fault where
  /-- The environment delivered a transport event for which no rule is enabled in the current sequencer
  state. The spec says such an event does not occur there (R5, R147) and gives it no effect. Raised by
  the step, never by an instruction. Safe: the model only stops. -/
  | eventNotEnabled (e : EnvEvent) (st : SeqState)
deriving DecidableEq, Repr

/-- Why a step has no meaning. -/
inductive Refusal where
  /-- The instruction has no meaning yet. Raised by exec's refused arms only. Safe. -/
  | notModelled (mnemonic : String)
  /-- The bytes issued as a command frame are no command frame (wrong length, reserved byte not zero,
  checksum wrong). Raised by the step: the host has no way to make FPC send such a frame (R84), so no
  composition of host accesses stands behind it. Safe. -/
  | notAFrame (e : DecodeError)
deriving DecidableEq, Repr

/-- The machine's state: plain data. -/
structure State where
  /-- Operand registers x[0] to x[8] (R11). -/
  x : Vector Byte 9
  /-- CHANNEL (R15). -/
  channel : Byte
  /-- BAUD (R12). -/
  baud : BitVec 32
  /-- ID_IN (R12). -/
  idIn : BitVec 16
  /-- FMT: 0 = Format A, 1 = Format B (R12). -/
  fmt : BitVec 1
  /-- HLEN (R12). -/
  hlen : BitVec 16
  /-- ENTRY_COUNT (R12). -/
  entryCount : BitVec 16
  /-- EXPECT_LEN (R12). -/
  expectLen : BitVec 32
  /-- TXLEN (R12). -/
  txlen : BitVec 16
  /-- RLEN (R12). -/
  rlen : BitVec 32
  /-- PAYLOAD_RETRY_LIMIT (R12, R145). -/
  payloadRetryLimit : BitVec 16
  /-- STATUS.ST (R14, R17). -/
  st : SeqState
  /-- STATUS.BUSY (R17). -/
  busy : Bool
  /-- STATUS.DEGRADED (R17). -/
  degraded : Bool
  /-- STATUS.P1_VALID (R17). -/
  p1Valid : Bool
  /-- STATUS.P2_VALID (R17). -/
  p2Valid : Bool
  /-- STATUS.W_BUSYVIOL (R17, R25). -/
  wBusyViol : Bool
  /-- STATUS.W_BADDIGIT (R17, R113). -/
  wBadDigit : Bool
  /-- STATUS.W_TPL_CLIP (R17, R171). -/
  wTplClip : Bool
  /-- STATUS.W_TPL_OOR (R17, R170). -/
  wTplOor : Bool
  /-- STATUS.W_PBUF_OVF (R17, R139). -/
  wPbufOvf : Bool
  /-- RESULT.CLASS (R18, R230). -/
  resultClass : ResultClass
  /-- RESULT.CODE (R18, R231). -/
  resultCode : Byte
  /-- EVT: bit 0 DONE, 1 DEVERR, 2 TIMEOUT, 3 PRESENCE (R19). -/
  evt : BitVec 4
  /-- EVT_EN (R19). -/
  evtEn : BitVec 4
  /-- EVT_CODE (R19). -/
  evtCode : Byte
  /-- ERRCODE (R20). -/
  errcode : Byte
  /-- PARAM1 (R20). -/
  param1 : BitVec 14
  /-- PARAM2 (R20). -/
  param2 : BitVec 14
  /-- DECLEN (R20). -/
  declen : BitVec 32
  /-- LCMD (R21). -/
  lcmd : Byte
  /-- WTIMER (R21, R251). -/
  wtimer : BitVec 32
  /-- RETRY (R21, R142). -/
  retry : BitVec 3
  /-- PRETRY (R21, R145). -/
  pretry : BitVec 16
  /-- ID_LO (R22). -/
  idLo : Byte
  /-- ID_HI (R22). -/
  idHi : Byte
  /-- NEXT_FREE (R22). -/
  nextFree : BitVec 14
  /-- DIR_COUNT (R22). -/
  dirCount : BitVec 14
  /-- Buffer TXF (R23). -/
  txf : Memory
  /-- Buffer ACK (R23). -/
  ack : Memory
  /-- Buffer PBUF (R23). -/
  pbuf : Memory
  /-- Buffer HBUF (R23). -/
  hbuf : Memory
  /-- Buffer TBUF (R23). -/
  tbuf : Memory
  /-- Buffer IBUF (R23). -/
  ibuf : Memory
  /-- DIRMAP (R23): the indices whose bit is 1, in increasing order (R177), or none while no DECDIR has
  run since reset and every bit is unspecified (R30). -/
  dirmap : Option (List Nat)
  /-- TXLOG (R24). -/
  txlog : List Byte
  /-- EVLOG (R24): each event with the code it carries, none where R241's table gives no code. -/
  evlog : List (EvKind × Option Byte)
  /-- The static parameters of R4 and R30's last row; no step changes them. -/
  cfg : Params
  /-- Model's own: everything FPC has put on its ports (R33) since power-on, oldest first. -/
  portlog : List Pulse
  /-- Model's own: how many Reset events there have been, the index of the free values. -/
  epoch : Nat
  /-- Model's own: the environment events still to come, next first. -/
  inbox : List EnvEvent
deriving DecidableEq, Repr

/-- The state after reset, as R30's table gives it. The static parameters are those of the block as
built, of which nothing is known; nothing has been put on a port and no event is pending. -/
def State.reset : State where
  x := Vector.replicate 9 0
  channel := 0x00
  baud := 0
  idIn := 0
  fmt := 0
  hlen := 0
  entryCount := 0
  expectLen := 0
  txlen := 0
  rlen := 0
  payloadRetryLimit := 0
  st := .idle
  busy := false
  degraded := false
  p1Valid := false
  p2Valid := false
  wBusyViol := false
  wBadDigit := false
  wTplClip := false
  wTplOor := false
  wPbufOvf := false
  resultClass := .ok
  resultCode := 0
  evt := 0
  evtEn := 0
  evtCode := 0
  errcode := 0
  param1 := 0
  param2 := 0
  declen := 0
  lcmd := 0
  wtimer := 0
  retry := 0
  pretry := 0
  idLo := 0
  idHi := 0
  nextFree := 0
  dirCount := 0
  txf := []
  ack := []
  pbuf := []
  hbuf := []
  tbuf := []
  ibuf := []
  dirmap := none
  txlog := []
  evlog := []
  cfg := Config.build
  portlog := []
  epoch := 0
  inbox := []

end Sys2Proof.Machine
end

