-- ==== Sys2Proof/Machine/Flags.lean ====
section
/-! DEFINITION. The numbers of the named values, the packing of STATUS, RESULT and EVT, and every flag
computation (`10_state.md` R14, R17 to R19; `60_exceptions.md` R230, R231, R240). -/

namespace Sys2Proof.Machine

/-- The code of ST (R14). -/
def SeqState.code : SeqState → BitVec 3
  | .idle => 0
  | .configuring => 1
  | .sending => 2
  | .awaitingAck => 3
  | .awaitingPayload => 4
  | .failed => 5

/-- The states of a command cycle, from its acceptance to its end (R146, R192, R260). -/
def SeqState.inCycle : SeqState → Bool
  | .idle | .failed => false
  | .configuring | .sending | .awaitingAck | .awaitingPayload => true

/-- The code of RESULT.CLASS (R230). -/
def ResultClass.code : ResultClass → BitVec 3
  | .ok => 0
  | .transportOpenFailed => 1
  | .transportWriteTimeout => 2
  | .protocolTimeout => 3
  | .deviceError => 4
  | .payloadTimeout => 5
  | .illegalRequest => 6

/-- The fault classes that mark the session degraded (R237). -/
def ResultClass.degrades : ResultClass → Bool
  | .transportOpenFailed | .transportWriteTimeout => true
  | .ok | .protocolTimeout | .deviceError | .payloadTimeout | .illegalRequest => false

/-- The fault classes that raise the TIMEOUT event (R237, R241). -/
def ResultClass.timesOut : ResultClass → Bool
  | .protocolTimeout | .payloadTimeout => true
  | .ok | .transportOpenFailed | .transportWriteTimeout | .deviceError | .illegalRequest => false

/-- IllegalRequest reason codes (R231). -/
abbrev illegalOpCode : Byte := 0x01
/-- RUN with a command byte outside the eleven (R231). -/
abbrev illegalCmdCode : Byte := 0x02
/-- RUN of 0x71 with TXLEN > 1616 (R231). -/
abbrev badTxlenCode : Byte := 0x03
/-- RUN of 0x43 with EXPECT_LEN > PBUF_CAP (R231). -/
abbrev badExpectLenCode : Byte := 0x04
/-- ID2B or ENCTPL with ID_IN > 9999 (R231). -/
abbrev idRangeCode : Byte := 0x05
/-- ENCTPL with HLEN out of range (R231). -/
abbrev tplLenCode : Byte := 0x06
/-- DECDIR on too short a payload (R231). -/
abbrev dirShortCode : Byte := 0x07
/-- FLIPIMG on too short a payload (R231). -/
abbrev imgShortCode : Byte := 0x08

/-- The EVT bit of an event kind (R19, R241). -/
def EvKind.mask : EvKind → BitVec 4
  | .done => 1
  | .deverr => 2
  | .timeout => 4
  | .presence => 8

/-- The port pulse of an event kind; DONE has none but `irq` (R241). -/
def EvKind.pulses (k : EvKind) (code : Option Byte) : List Pulse :=
  match k with
  | .done => []
  | .deverr => [.evtDeverr (code.getD 0)]
  | .timeout => [.evtTimeout]
  | .presence => [.evtPresence]

/-- EVT_CODE after an event: the code of the most recent DEVERR (R19, R240). -/
def EvKind.evtCode (k : EvKind) (code : Option Byte) (old : Byte) : Byte :=
  match k with
  | .deverr => code.getD old
  | .done | .timeout | .presence => old

/-- `irq = ((EVT and EVT_EN) != 0)` (R19, R240). -/
def State.irq (s : State) : Bool := (s.evt &&& s.evtEn) != 0

/-- Port `rx_wait`: 1 while FPC is in a wait for readable data (R33, R137). -/
def State.rxWait (s : State) : Bool :=
  match s.st with
  | .awaitingAck | .awaitingPayload => true
  | .idle | .configuring | .sending | .failed => false

/-- STATUS as the host reads it (R17): bits 15:13 and 7 read 0. -/
def State.statusWord (s : State) : BitVec 16 :=
  (0#3 ++ BitVec.ofBool s.wPbufOvf ++ BitVec.ofBool s.wTplOor ++ BitVec.ofBool s.wTplClip
    ++ BitVec.ofBool s.wBadDigit ++ BitVec.ofBool s.wBusyViol ++ 0#1 ++ BitVec.ofBool s.p2Valid
    ++ BitVec.ofBool s.p1Valid ++ BitVec.ofBool s.degraded ++ s.st.code ++ BitVec.ofBool s.busy)

/-- RESULT as the host reads it: CODE in bits 15:8, CLASS in bits 2:0 (R18). -/
def State.resultWord (s : State) : BitVec 16 := s.resultCode ++ 0#5 ++ s.resultClass.code

/-- A host write of STATUS: bits 12:8 are write-1-to-clear, the rest read-only (R17). -/
def State.clearWarnings (v : BusWord) (s : State) : State :=
  { s with
    wBusyViol := s.wBusyViol && !v.getLsbD 8
    wBadDigit := s.wBadDigit && !v.getLsbD 9
    wTplClip := s.wTplClip && !v.getLsbD 10
    wTplOor := s.wTplOor && !v.getLsbD 11
    wPbufOvf := s.wPbufOvf && !v.getLsbD 12 }

/-- A host write of EVT: write-1-to-clear (R19). -/
def State.clearEvents (v : BusWord) (s : State) : State :=
  { s with evt := s.evt &&& ~~~(v.setWidth 4) }

/-- A host write or start met BUSY = 1: nothing but the sticky W_BUSYVIOL changes (R25). -/
def State.busyViolation (s : State) : State := { s with wBusyViol := true }

/-- Sticky W_BADDIGIT (R17, R113, R176). -/
def State.noteBadDigit (bad : Bool) (s : State) : State := { s with wBadDigit := s.wBadDigit || bad }

/-- Sticky W_TPL_CLIP and W_TPL_OOR (R17, R170, R171). -/
def State.noteTemplate (clip oor : Bool) (s : State) : State :=
  { s with wTplClip := s.wTplClip || clip, wTplOor := s.wTplOor || oor }

end Sys2Proof.Machine
end

