-- ==== Sys2Proof/Machine/Ops.lean ====
section
/-! DEFINITION. The named operations over buffers, ports, events and results, among them the two ways an
operation takes an exception: the fail sequence of a cycle (`60_exceptions.md` R237) and the refusal
sequence of a request (R238). There is no return from an exception (R245): the host simply starts the
next operation. -/

namespace Sys2Proof.Machine

/-! ### Buffers -/

/-- The byte written at an index, none where nothing has written one. -/
def Memory.lookup : Memory → Nat → Option Byte
  | [], _ => none
  | (a, b) :: m, i => if a = i then some b else Memory.lookup m i

/-- The cells of consecutive bytes from index `base`. -/
def cellsFrom : Nat → List Byte → Memory
  | _, [] => []
  | base, b :: bs => (base, b) :: cellsFrom (base + 1) bs

/-- Writes consecutive bytes from index `base`; every other index keeps what it held. The one write of
the model: it keeps the indices strictly rising. -/
def Memory.writeBlock (m : Memory) (base : Nat) (bs : List Byte) : Memory :=
  m.filter (fun c => c.1 < base) ++ (cellsFrom base bs ++ m.filter (fun c => base + bs.length ≤ c.1))

/-- The canonical form: indices strictly rising. An unlisted index has no value, so no entry can repeat
what an unlisted one holds. -/
abbrev Memory.wf (m : Memory) : Prop := m.Pairwise (fun a b => a.1 < b.1)

/-- Every index lies below `n`. -/
abbrev Memory.within (n : Nat) (m : Memory) : Prop := ∀ c ∈ m, c.1 < n

/-- The number of a buffer's space (R23). -/
def Buf.space : Buf → Nat
  | .txf => 0
  | .ack => 1
  | .pbuf => 2
  | .hbuf => 3
  | .tbuf => 4
  | .ibuf => 5

/-- The size of a buffer (R23). -/
def Buf.size (p : Params) : Buf → Nat
  | .txf => Config.frameLen
  | .ack => Config.frameLen
  | .pbuf => p.pbufCap
  | .hbuf => Config.hbufSize
  | .tbuf => Config.recA
  | .ibuf => Config.ibufSize

/-- A buffer of the state. -/
def State.bufOf (s : State) : Buf → Memory
  | .txf => s.txf
  | .ack => s.ack
  | .pbuf => s.pbuf
  | .hbuf => s.hbuf
  | .tbuf => s.tbuf
  | .ibuf => s.ibuf

/-- The state with one buffer replaced. -/
def State.setBuf (b : Buf) (m : Memory) (s : State) : State :=
  match b with
  | .txf => { s with txf := m }
  | .ack => { s with ack := m }
  | .pbuf => { s with pbuf := m }
  | .hbuf => { s with hbuf := m }
  | .tbuf => { s with tbuf := m }
  | .ibuf => { s with ibuf := m }

/-- `B[i]` (R5): the byte last written there, any value where nothing has been written since reset (R30,
U14). -/
def State.byteAt (s : State) (b : Buf) (i : Nat) : Byte :=
  ((s.bufOf b).lookup i).getD (Config.unwrittenByte s.epoch b.space i)

/-- The `n` bytes of a buffer from index `base`, in order. -/
def State.bytesFrom (s : State) (b : Buf) (base n : Nat) : List Byte :=
  (List.range n).map fun j => s.byteAt b (base + j)

/-- Writes consecutive bytes of a buffer. -/
def State.writeBytes (b : Buf) (base : Nat) (bs : List Byte) (s : State) : State :=
  s.setBuf b ((s.bufOf b).writeBlock base bs)

/-- `DIRMAP[i]`: 1 iff id `i` is in the decoded directory (R23); any value before the first DECDIR since
reset (R30). -/
def State.dirBit (s : State) (i : Nat) : Bool :=
  match s.dirmap with
  | some ids => ids.contains i
  | none => Config.unwrittenBit s.epoch i

/-- PLEN, the number of valid bytes in PBUF (R13). -/
def State.plen (s : State) : Nat := min (s.rlen.toNat - 12) s.cfg.pbufCap

/-! ### Ports, events, results -/

/-- A pulse on a port (R33). -/
def State.pulse (p : Pulse) (s : State) : State := { s with portlog := s.portlog ++ [p] }

/-- `tx` of consecutive bytes: each is appended to TXLOG and presented on the transmit port (R133). -/
def State.transmit (bs : List Byte) (s : State) : State :=
  { s with txlog := s.txlog ++ bs, portlog := s.portlog ++ bs.map Pulse.txData }

/-- `emit E(code)` (R240). -/
def State.emit (k : EvKind) (code : Option Byte) (s : State) : State :=
  { s with
    evlog := s.evlog ++ [(k, code)]
    evt := s.evt ||| k.mask
    evtCode := k.evtCode code s.evtCode
    portlog := s.portlog ++ k.pulses code }

/-- `RESULT <- (class, code)` (R18). -/
def State.setResult (c : ResultClass) (code : Byte) (s : State) : State :=
  { s with resultClass := c, resultCode := code }

/-- The end of a pure operation that was performed: `RESULT <- (OK, 0); emit DONE` (R200, R241). -/
def State.complete (s : State) : State := (s.setResult .ok 0).emit .done none

/-- The refusal sequence, `raise IllegalRequest(code)` (R238). -/
def State.refuse (code : Byte) (s : State) : State := (s.setResult .illegalRequest code).emit .done none

/-- `endcycle(st, class, code)`, the common end of every cycle (R198, R146). -/
def State.endCycle (st : SeqState) (c : ResultClass) (code : Byte) (s : State) : State :=
  let closed := (s.pulse .tpClose).setResult c code
  ({ closed with st := st, busy := false } : State).emit .done none

/-- The two marks a fault makes before the cycle ends: DEGRADED for the transport failures, the TIMEOUT
event for the timeouts (R237). -/
def State.markFault (c : ResultClass) (s : State) : State :=
  let marked := { s with degraded := s.degraded || c.degrades }
  if c.timesOut then marked.emit .timeout (some 0) else marked

/-- The fail sequence, `raise <Class>(0)` for a fault inside a cycle: the block's taking of an exception
(R237). -/
def State.raiseFault (c : ResultClass) (s : State) : State := (s.markFault c).endCycle .failed c 0

/-- The gate of every operation: a start while BUSY = 1 is ignored and flagged (R25, R216). -/
def State.whenIdle (act : State → State) (s : State) : State :=
  if s.busy then s.busyViolation else act s

end Sys2Proof.Machine
end

