-- ==== Sys2Proof/Machine/Operands.lean ====
section
/-! DEFINITION. The operand forms: nibbles and packed decimal (`00_scope.md` R5, R7;
`41_response_decoder.md` R111 to R113; `43_record_codec.md` R165), the frame operands held in x[0..8]
and CHANNEL (`10_state.md` R11, R15), and the source hash's bytes and length fields (R168, R170). -/

namespace Sys2Proof.Machine

/-- `hi4(b) = b[7:4]` (R5). -/
def hi4 (b : Byte) : Nat := b.toNat / 16

/-- `lo4(b) = b[3:0]` (R5). -/
def lo4 (b : Byte) : Nat := b.toNat % 16

/-- The value of four decimal digits and the mark that they are decimal; a nibble above 9 gives the
value 0 and no mark (R112, R113). -/
def pairval (lo hi : Byte) : Nat × Bool :=
  if hi4 hi ≤ 9 ∧ lo4 hi ≤ 9 ∧ hi4 lo ≤ 9 ∧ lo4 lo ≤ 9
  then (1000 * hi4 hi + 100 * lo4 hi + 10 * hi4 lo + lo4 lo, true)
  else (0, false)

/-- The low byte of `id2b(id)`: the tens and units digits, one per nibble (R7, R165). -/
def id2bLow (id : Nat) : Byte := BitVec.ofNat 8 (16 * (id / 10 % 10) + id % 10)

/-- The high byte of `id2b(id)`: the thousands and hundreds digits (R7, R165). -/
def id2bHigh (id : Nat) : Byte := BitVec.ofNat 8 (16 * (id / 1000) + id / 100 % 10)

/-- The operands a frame takes from CHANNEL and x[1] to x[8] (R11, R100). -/
def State.frameArgs (s : State) : FrameArgs :=
  ⟨s.channel, s.x[1], s.x[2], s.x[3], s.x[4], s.x[5], s.x[6], s.x[7], s.x[8]⟩

/-- The frame built from CHANNEL and x[0..8] (R100). -/
def State.frame (s : State) : List Byte := frameBytes s.x[0] s.frameArgs

/-- The operand registers written with a command byte and the operands of a frame (R11, R15). -/
def State.loadOperands (cmd : Byte) (a : FrameArgs) (s : State) : State :=
  { s with
    channel := a.channel
    x := #v[cmd, a.p1l, a.p1h, a.p2l, a.p2h, a.eal, a.eah, a.ebl, a.ebh] }

/-- `rd(i)`: byte `i` of the source hash, 0x00 at or beyond HLEN (R170). -/
def State.hashRead (s : State) (i : Nat) : Byte :=
  if i < s.hlen.toNat then s.byteAt .hbuf i else 0x00

/-- `lenfield(p)`: the two bytes at offset 8 of the template that begins at `p`, high byte first
(R168). -/
def State.lenField (s : State) (p : Nat) : Nat :=
  256 * (s.hashRead (p + Config.lenOff)).toNat + (s.hashRead (p + Config.lenOff + 1)).toNat

/-- Reading `lenfield(p)` goes beyond HLEN (R170). -/
def State.lenFieldOut (s : State) (p : Nat) : Bool := s.hlen.toNat ≤ p + Config.lenOff + 1

end Sys2Proof.Machine
end

