-- ==== Sys2Proof/Machine/FrameCodec.lean ====
section
/-! DEFINITION. The Frame Codec: BUILD (`40_frame_codec.md` R100 to R102). -/

namespace Sys2Proof.Machine

/-- TXF written with the frame of CHANNEL and x[0..8]: BUILD's effect on TXF, and the first step of RUN
(R100, R190). -/
def State.latchFrame (s : State) : State := s.writeBytes .txf 0 s.frame

/-- BUILD, performed (R100). -/
def State.buildOp (s : State) : State := s.latchFrame.complete

/-- BUILD (R100): no fault for any operand values; ignored while BUSY = 1 (R25). -/
def execBuild (s : State) : Host.Outcome State Fault Refusal := .next (s.whenIdle State.buildOp)

end Sys2Proof.Machine
end

