-- ==== Sys2Proof/Machine/ResponseDecoder.lean ====
section
/-! DEFINITION. The Response Decoder: the declared payload length, the ack decode step and DECACK
(`41_response_decoder.md` R110 to R118). -/

namespace Sys2Proof.Machine

/-- The declared payload length (R116). -/
def declaredLength (cmd err : Byte) (p1 rlen expect : Nat) : Nat :=
  if err ≠ 0 then 0
  else if cmd = 0x7D then p1 * 12
  else if cmd = 0x73 then rlen - 12
  else if cmd = 0x43 then expect
  else 0

/-- The packed-decimal pair at two indices of ACK (R73). -/
def State.ackPair (s : State) (lo hi : Fin 12) : Nat × Bool :=
  pairval (s.byteAt .ack lo.val) (s.byteAt .ack hi.val)

/-- The first parameter pair, at the indices ACKMAP names (R73). -/
def State.ackPair1 (s : State) : Nat × Bool := s.ackPair s.cfg.ackP1Lo s.cfg.ackP1Hi

/-- The second parameter pair (R73). -/
def State.ackPair2 (s : State) : Nat × Bool := s.ackPair s.cfg.ackP2Lo s.cfg.ackP2Hi

/-- The ack decode step for command `c` (R110, R114); a nibble above 9 sets W_BADDIGIT (R113). -/
def State.ackDecode (c : Byte) (s : State) : State :=
  let err := s.byteAt .ack Config.ackErrIdx
  let decoded :=
    { s with
      errcode := err
      param1 := BitVec.ofNat 14 s.ackPair1.1
      p1Valid := s.ackPair1.2
      param2 := BitVec.ofNat 14 s.ackPair2.1
      p2Valid := s.ackPair2.2
      declen := BitVec.ofNat 32
        (declaredLength c err s.ackPair1.1 s.rlen.toNat s.expectLen.toNat) }
  decoded.noteBadDigit (!(s.ackPair1.2 && s.ackPair2.2))

/-- DECACK, performed: the ack decode step with c = x[0] (R118). -/
def State.decackOp (s : State) : State := (s.ackDecode s.x[0]).complete

/-- DECACK (R118): no fault; raises no DEVERR and does not touch ST. -/
def execDecack (s : State) : Host.Outcome State Fault Refusal := .next (s.whenIdle State.decackOp)

end Sys2Proof.Machine
end

