-- ==== Sys2Proof/Machine/Transport.lean ====
section
/-! DEFINITION. The Transport Session: configure, send, receiveAck, receivePayload and close, one
definition for each sequencer state and event (`42_transport_session.md` R130 to R147), with the ends of
a cycle (`44_device_facade.md` R195 to R198). -/

namespace Sys2Proof.Machine

/-- Data bits 8, parity none, stop bits 1, flow control none (R33, R130). -/
def lineSettings : LineSettings := ⟨8, false, 1, false⟩

/-- The configure step (R130). -/
def State.configure (s : State) : State :=
  let opened := (s.pulse (.tpOpenReq s.baud lineSettings)).pulse .tpClearError
  { opened with degraded := false, st := .configuring }

/-- The bytes of one send: the frame, and for command 0x71 the encoded template record (R81, R133). -/
def State.sendBytes (s : State) : List Byte :=
  s.bytesFrom .txf 0 Config.frameLen
    ++ (if s.lcmd = 0x71 then s.bytesFrom .tbuf 0 s.txlen.toNat else [])

/-- Configuring, `TpOpenOk`: send, and wait for the write to complete (R131, R133). -/
def State.onTpOpenOk (s : State) : State :=
  { s.transmit s.sendBytes with wtimer := 0, st := .sending }

/-- Configuring, `TpOpenFail` (R132). -/
def State.onTpOpenFail (s : State) : State := s.raiseFault .transportOpenFailed

/-- Sending, `Tick`: the write timeout (R134). -/
def State.onTickSending (s : State) : State :=
  let ticked := { s with wtimer := s.wtimer + 1 }
  if ticked.wtimer.toNat = s.cfg.writeTimeoutTicks then ticked.raiseFault .transportWriteTimeout
  else ticked

/-- The normal end of a cycle (R197). -/
def State.normalEnd (s : State) : State := s.endCycle .idle .ok 0

/-- The device-error end of a cycle (R196). -/
def State.deviceErrorEnd (s : State) : State :=
  (s.emit .deverr (some s.errcode)).endCycle .idle .deviceError s.errcode

/-- Sending, `TxWritten`: command 0x21 is not acknowledged and its cycle ends here; every other command
begins to wait for its acknowledgment (R135, R136). -/
def State.onTxWritten (s : State) : State :=
  if s.lcmd = 0x21 then s.normalEnd
  else { s with wtimer := 0, retry := 0, st := .awaitingAck }

/-- `min(n + 1, 2^32 - 1)` (R139). -/
def satSucc (n : BitVec 32) : BitVec 32 := BitVec.ofNat 32 (min (n.toNat + 1) 4294967295)

/-- Storing byte number RLEN of a response: into ACK, then into PBUF, and dropped and flagged where PBUF
is full (R14, R139). -/
def State.storeByte (s : State) (b : Byte) : State :=
  let n := s.rlen.toNat
  let placed :=
    if n < 12 then s.writeBytes .ack n [b]
    else if n - 12 < s.cfg.pbufCap then s.writeBytes .pbuf (n - 12) [b]
    else { s with wPbufOvf := true }
  { placed with rlen := satSucc s.rlen }

/-- Storing a chunk (R139). -/
def State.store (bs : List Byte) (s : State) : State := { bs.foldl State.storeByte s with wtimer := 0 }

/-- The payload is complete: RLEN - 12 >= DECLEN (R120). -/
def State.payloadComplete (s : State) : Bool := s.declen.toNat ≤ s.rlen.toNat - 12

/-- The acknowledgment is complete (R195). -/
def State.ackComplete (s : State) : State :=
  let d := s.ackDecode s.lcmd
  if d.errcode ≠ 0 then d.deviceErrorEnd
  else if d.payloadComplete then d.normalEnd
  else { d with pretry := 0, wtimer := 0, st := .awaitingPayload }

/-- AwaitingAck, `RxChunk(bs)` (R138). -/
def State.onChunkAck (bs : List Byte) (s : State) : State :=
  let r := s.store bs
  if 12 ≤ r.rlen.toNat then r.ackComplete else r

/-- AwaitingAck, `Tick`: the wait window and the retry budget (R140 to R142). -/
def State.onTickAck (s : State) : State :=
  let w := s.wtimer + 1
  if w.toNat = s.cfg.rxWindowTicks then
    let counted := { s with wtimer := 0, retry := s.retry + 1 }
    if counted.retry.toNat = Config.ackRetryBudget then counted.raiseFault .protocolTimeout else counted
  else { s with wtimer := w }

/-- AwaitingPayload, `RxChunk(bs)` (R143). -/
def State.onChunkPayload (bs : List Byte) (s : State) : State :=
  let r := s.store bs
  if r.payloadComplete then r.normalEnd else r

/-- AwaitingPayload, `Tick`: the wait window, counted only where the host has set a limit (R144,
R145). -/
def State.onTickPayload (s : State) : State :=
  let w := s.wtimer + 1
  if w.toNat = s.cfg.rxWindowTicks then
    let rewound := { s with wtimer := 0 }
    if s.payloadRetryLimit = 0 then rewound
    else
      let counted := { rewound with pretry := s.pretry + 1 }
      if counted.pretry = s.payloadRetryLimit then counted.raiseFault .payloadTimeout else counted
  else { s with wtimer := w }

/-- `Tick` in any state (R132, R134, R140, R144, R147). -/
def State.onTick (s : State) : State :=
  match s.st with
  | .idle | .failed | .configuring => s
  | .sending => s.onTickSending
  | .awaitingAck => s.onTickAck
  | .awaitingPayload => s.onTickPayload

/-- `PresenceEdge` in any state (R59, R243). -/
def State.onPresence (s : State) : State := if s.cfg.hasPresence then s.emit .presence none else s

/-- The `Reset` event in any state: R30's values; the static parameters stand (R261), a cycle in flight is
abandoned with one close (R146, R260), and the buffers are unspecified anew. -/
def State.onReset (s : State) : State :=
  { State.reset with
    cfg := s.cfg
    epoch := s.epoch + 1
    inbox := s.inbox
    portlog := s.portlog ++ (if s.st.inCycle then [.tpClose] else []) }

end Sys2Proof.Machine
end

