-- ==== Sys2Proof/Machine/Facade.lean ====
section
/-! DEFINITION. The Device Facade: RUN, the eleven device commands, the free-id search and the illegal
operation numbers (`44_device_facade.md` R190 to R216). -/

namespace Sys2Proof.Machine

/-- The refusal conditions of RUN in their order, the first that holds giving the code (R191). -/
def State.runRefusal (s : State) : Option Byte :=
  if Command.ofByte s.x[0] = none then some illegalCmdCode
  else if s.x[0] = 0x71 ∧ 1616 < s.txlen.toNat then some badTxlenCode
  else if s.x[0] = 0x43 ∧ s.cfg.pbufCap < s.expectLen.toNat then some badExpectLenCode
  else none

/-- RUN accepted (R190). -/
def State.runAccept (s : State) : State :=
  let latched := s.latchFrame
  let cleared :=
    { latched with
      busy := true
      lcmd := s.x[0]
      rlen := 0
      retry := 0
      pretry := 0
      wtimer := 0
      errcode := 0
      param1 := 0
      param2 := 0
      p1Valid := false
      p2Valid := false
      declen := 0
      resultClass := .ok
      resultCode := 0 }
  State.configure cleared

/-- RUN, accepted or refused (R190, R191). -/
def State.runOp (s : State) : State :=
  match s.runRefusal with
  | some code => s.refuse code
  | none => s.runAccept

/-- RUN: one command cycle is started; the environment's events carry it on (R190 to R199). -/
def execRun (s : State) : Host.Outcome State Fault Refusal := .next (s.whenIdle State.runOp)

/-- The host issues the command of a frame: it writes CHANNEL and x[0..8] with the frame's operands and
starts RUN (R92, R204). While BUSY = 1 each of these is ignored and flagged (R25). -/
def State.issue (cmd : Byte) (a : FrameArgs) (s : State) : State :=
  s.whenIdle fun s => (s.loadOperands cmd a).runOp

/-- BAUD, 0x21: sent and not acknowledged (R205, R136). -/
def execBaud (a : FrameArgs) (s : State) : Host.Outcome State Fault Refusal := .next (s.issue 0x21 a)

/-- STATUS, 0x30 (R206). -/
def execStatus (a : FrameArgs) (s : State) : Host.Outcome State Fault Refusal := .next (s.issue 0x30 a)

/-- ENROLL_START, 0x50 (R207). -/
def execEnrollStart (a : FrameArgs) (s : State) : Host.Outcome State Fault Refusal :=
  .next (s.issue 0x50 a)

/-- ENROLL_FINISH, 0x51 (R208). -/
def execEnrollFinish (a : FrameArgs) (s : State) : Host.Outcome State Fault Refusal :=
  .next (s.issue 0x51 a)

/-- DELETE, 0x54 (R209). -/
def execDelete (a : FrameArgs) (s : State) : Host.Outcome State Fault Refusal := .next (s.issue 0x54 a)

/-- VERIFY, 0x55 (R210). -/
def execVerify (a : FrameArgs) (s : State) : Host.Outcome State Fault Refusal := .next (s.issue 0x55 a)

/-- IDENTIFY, 0x56 (R211). -/
def execIdentify (a : FrameArgs) (s : State) : Host.Outcome State Fault Refusal := .next (s.issue 0x56 a)

/-- GET_IMAGE, 0x43: the declared length is EXPECT_LEN (R212). -/
def execGetImage (a : FrameArgs) (s : State) : Host.Outcome State Fault Refusal := .next (s.issue 0x43 a)

/-- PUT_TEMPLATE, 0x71: TBUF[0..TXLEN-1] follows the frame (R213). -/
def execPutTemplate (a : FrameArgs) (s : State) : Host.Outcome State Fault Refusal :=
  .next (s.issue 0x71 a)

/-- GET_TEMPLATE, 0x73: the declared length is what has arrived (R214). -/
def execGetTemplate (a : FrameArgs) (s : State) : Host.Outcome State Fault Refusal :=
  .next (s.issue 0x73 a)

/-- LIST, 0x7D: the declared length is PARAM1 * 12 (R215). -/
def execList (a : FrameArgs) (s : State) : Host.Outcome State Fault Refusal := .next (s.issue 0x7D a)

/-- The linear scan of the free-id search: the first index from `i` on, among `n`, whose bit is 0, else
10000 (R203). -/
def firstFree (bit : Nat → Bool) : Nat → Nat → Nat
  | _, 0 => Config.notFound
  | i, n + 1 => if bit i then firstFree bit (i + 1) n else i

/-- NEXTFREE, performed: the scan from 1 to 9999 (R203). -/
def State.nextfreeOp (s : State) : State :=
  ({ s with nextFree := BitVec.ofNat 14 (firstFree s.dirBit 1 Config.idBound) } : State).complete

/-- NEXTFREE (R203): no fault; 10000 is an ordinary result. -/
def execNextfree (s : State) : Host.Outcome State Fault Refusal := .next (s.whenIdle State.nextfreeOp)

/-- HostStart with OP 0 or 9 to 15 (R201). -/
def State.illegalStart (s : State) : State := s.whenIdle fun s => s.refuse illegalOpCode

end Sys2Proof.Machine
end

