-- ==== Sys2Proof/Machine/RecordCodec.lean ====
section
/-! DEFINITION. The Record Codec: ID2B, ENCTPL, DECDIR, FLIPIMG (`43_record_codec.md` R165 to R182). -/

namespace Sys2Proof.Machine

/-! ### ID2B -/

/-- ID2B, performed or refused (R165). -/
def State.id2bOp (s : State) : State :=
  if Config.idBound < s.idIn.toNat then s.refuse idRangeCode
  else ({ s with idLo := id2bLow s.idIn.toNat, idHi := id2bHigh s.idIn.toNat } : State).complete

/-- ID2B (R165). -/
def execId2b (s : State) : Host.Outcome State Fault Refusal := .next (s.whenIdle State.id2bOp)

/-! ### ENCTPL -/

/-- What a template copy puts into the slots, and the two warnings it may raise (R169 to R172). -/
structure TemplateCopy where
  t1 : List Byte
  t2 : List Byte
  clip : Bool
  oor : Bool
deriving DecidableEq, Repr

/-- Bytes H[from .. from+n-1] of the source hash. -/
def State.hashBytes (s : State) (start n : Nat) : List Byte := s.bytesFrom .hbuf start n

/-- The Format A copy: two templates iff HLEN > L1, else the one template twice (R169, R171). -/
def State.copyA (s : State) : TemplateCopy :=
  let len := s.hlen.toNat
  let l1 := s.lenField 0
  if l1 < len then
    let rem := len - l1
    let l2 := s.lenField l1
    let n2 := min (min l2 rem) Config.slot
    { t1 := s.hashBytes 0 (min l1 Config.slot)
      t2 := s.hashBytes l1 n2
      clip := Config.slot < l1 || n2 < l2
      oor := s.lenFieldOut l1 }
  else
    let n := min len Config.slot
    { t1 := s.hashBytes 0 n, t2 := s.hashBytes 0 n, clip := Config.slot < len, oor := false }

/-- The Format B copy into its single slot (R172). -/
def State.copyB (s : State) : TemplateCopy :=
  { t1 := s.hashBytes 0 (min s.hlen.toNat Config.slot)
    t2 := []
    clip := Config.slot < s.hlen.toNat
    oor := false }

/-- A slot: the copied bytes, then 0x00 to the slot boundary (R167). -/
def slotBytes (bs : List Byte) : List Byte := bs ++ List.replicate (Config.slot - bs.length) 0x00

/-- Record bytes 0 to 3: the id's two bytes and the reserved zeros (R74, R75, R166). -/
def recordHead (id : Nat) : List Byte := [id2bLow id, id2bHigh id, 0x00, 0x00]

/-- The trailing twelve bytes of 0xFF (R74, R75). -/
def recordTail : List Byte := List.replicate Config.recTail Config.padVal

/-- The Format A record (R74). -/
def recordA (id : Nat) (c : TemplateCopy) : List Byte :=
  recordHead id ++ slotBytes c.t1 ++ slotBytes c.t2 ++ recordTail

/-- The Format B record (R75). -/
def recordB (id : Nat) (c : TemplateCopy) : List Byte := recordHead id ++ slotBytes c.t1 ++ recordTail

/-- Writing a record: TBUF from index 0, TXLEN, the two warnings, the end of the operation (R167). -/
def State.writeRecord (rec : List Byte) (c : TemplateCopy) (s : State) : State :=
  let written := s.writeBytes .tbuf 0 rec
  (({ written with txlen := BitVec.ofNat 16 rec.length } : State).noteTemplate c.clip c.oor).complete

/-- ENCTPL, performed or refused; the refusals are tested in this order (R167). -/
def State.enctplOp (s : State) : State :=
  if Config.idBound < s.idIn.toNat then s.refuse idRangeCode
  else if Config.hbufSize < s.hlen.toNat then s.refuse tplLenCode
  else if s.fmt = 0 ∧ s.hlen.toNat < 10 then s.refuse tplLenCode
  else if s.fmt = 1 then s.writeRecord (recordB s.idIn.toNat s.copyB) s.copyB
  else s.writeRecord (recordA s.idIn.toNat s.copyA) s.copyA

/-- ENCTPL (R167). -/
def execEnctpl (s : State) : Host.Outcome State Fault Refusal := .next (s.whenIdle State.enctplOp)

/-! ### DECDIR -/

/-- The id pair of directory entry `k` (R175). -/
def State.dirEntry (s : State) (k : Nat) : Nat × Bool :=
  pairval (s.byteAt .pbuf (Config.dirStride * k)) (s.byteAt .pbuf (Config.dirStride * k + 1))

/-- Inserts an id into an increasing list of ids, once (R177). -/
def insertId (v : Nat) : List Nat → List Nat
  | [] => [v]
  | i :: is => if v < i then v :: i :: is else if v = i then i :: is else i :: insertId v is

/-- Sets the DIRMAP bit of one entry; an entry with a nibble above 9 sets none (R174, R176). -/
def enterId (ids : List Nat) (e : Nat × Bool) : List Nat := if e.2 then insertId e.1 ids else ids

/-- The entries a payload declares, in payload order (R78, R175). -/
def State.dirEntries (s : State) : List (Nat × Bool) :=
  (List.range s.entryCount.toNat).map s.dirEntry

/-- The ids of a decoded directory, in increasing order (R174, R177). -/
def State.decodedIds (s : State) : List Nat := s.dirEntries.foldl enterId []

/-- DECDIR, performed or refused (R174). -/
def State.decdirOp (s : State) : State :=
  if s.plen < Config.dirStride * s.entryCount.toNat then s.refuse dirShortCode
  else
    let decoded :=
      { s with dirmap := some s.decodedIds, dirCount := BitVec.ofNat 14 s.decodedIds.length }
    (decoded.noteBadDigit (s.dirEntries.any fun e => !e.2)).complete

/-- DECDIR (R174). -/
def execDecdir (s : State) : Host.Outcome State Fault Refusal := .next (s.whenIdle State.decdirOp)

/-! ### FLIPIMG -/

/-- One input row copied to its output row, first 130 of 132 bytes (R180). -/
def State.flipRow (s : State) (i : Nat) : State :=
  s.writeBytes .ibuf (Config.halfOutW * (149 - i))
    (s.bytesFrom .pbuf (Config.halfInW * i) Config.halfInW)

/-- FLIPIMG, performed or refused (R181); the two pad bytes of a row are not written (R182). -/
def State.flipimgOp (s : State) : State :=
  if s.plen < Config.halfInSize then s.refuse imgShortCode
  else ((List.range Config.halfRows).foldl State.flipRow s).complete

/-- FLIPIMG (R181). -/
def execFlipimg (s : State) : Host.Outcome State Fault Refusal := .next (s.whenIdle State.flipimgOp)

end Sys2Proof.Machine
end

