-- ==== Sys2Proof/Machine/Dispatch.lean ====
section
/-! DEFINITION. One arm per instruction: each is one direct call of its meaning. -/

namespace Sys2Proof.Machine

def exec (i : Instr) (s : State) : Host.Outcome State Fault Refusal :=
  match i with
  | .baud a => Sys2Proof.Machine.execBaud a s
  | .status a => Sys2Proof.Machine.execStatus a s
  | .enrollStart a => Sys2Proof.Machine.execEnrollStart a s
  | .enrollFinish a => Sys2Proof.Machine.execEnrollFinish a s
  | .delete a => Sys2Proof.Machine.execDelete a s
  | .verify a => Sys2Proof.Machine.execVerify a s
  | .identify a => Sys2Proof.Machine.execIdentify a s
  | .getImage a => Sys2Proof.Machine.execGetImage a s
  | .putTemplate a => Sys2Proof.Machine.execPutTemplate a s
  | .getTemplate a => Sys2Proof.Machine.execGetTemplate a s
  | .list a => Sys2Proof.Machine.execList a s
  | .build => Sys2Proof.Machine.execBuild s
  | .run => Sys2Proof.Machine.execRun s
  | .id2b => Sys2Proof.Machine.execId2b s
  | .decack => Sys2Proof.Machine.execDecack s
  | .enctpl => Sys2Proof.Machine.execEnctpl s
  | .decdir => Sys2Proof.Machine.execDecdir s
  | .nextfree => Sys2Proof.Machine.execNextfree s
  | .flipimg => Sys2Proof.Machine.execFlipimg s

end Sys2Proof.Machine
end

