-- ==== Sys2Proof/Machine/HostPort.lean ====
section
/-! DEFINITION. Host accesses: the register numbers, what a register reads as, what a write does, and the
buffer spaces (`10_state.md` R11 to R26; `20_memory.md` R52 to R54). -/

namespace Sys2Proof.Machine

/-- The registers a host can reach, under the names of R26's table. -/
inductive HostReg where
  | ctrl | status | result | evt | evtEn | evtCode | channel | baud
  | x (i : Fin 9)
  | idIn | fmt | hlen | entryCount | expectLen | txlen | payloadRetryLimit
  | errcode | param1 | param2 | declen | rlen | idLo | idHi | nextFree | dirCount
  | lcmd | retry | pretry | wtimer
deriving DecidableEq, Repr

/-- The register of a number; numbers 0x25 and above do not exist (R26). -/
def hostReg (n : Nat) : Option HostReg :=
  match n with
  | 0x00 => some .ctrl
  | 0x01 => some .status
  | 0x02 => some .result
  | 0x03 => some .evt
  | 0x04 => some .evtEn
  | 0x05 => some .evtCode
  | 0x06 => some .channel
  | 0x07 => some .baud
  | 0x08 => some (.x 0)
  | 0x09 => some (.x 1)
  | 0x0A => some (.x 2)
  | 0x0B => some (.x 3)
  | 0x0C => some (.x 4)
  | 0x0D => some (.x 5)
  | 0x0E => some (.x 6)
  | 0x0F => some (.x 7)
  | 0x10 => some (.x 8)
  | 0x11 => some .idIn
  | 0x12 => some .fmt
  | 0x13 => some .hlen
  | 0x14 => some .entryCount
  | 0x15 => some .expectLen
  | 0x16 => some .txlen
  | 0x17 => some .payloadRetryLimit
  | 0x18 => some .errcode
  | 0x19 => some .param1
  | 0x1A => some .param2
  | 0x1B => some .declen
  | 0x1C => some .rlen
  | 0x1D => some .idLo
  | 0x1E => some .idHi
  | 0x1F => some .nextFree
  | 0x20 => some .dirCount
  | 0x21 => some .lcmd
  | 0x22 => some .retry
  | 0x23 => some .pretry
  | 0x24 => some .wtimer
  | _ => none

/-- What a register reads as: its value, zero-extended; CTRL reads as 0 (R16). -/
def State.regValue (s : State) : HostReg → BusWord
  | .ctrl => 0
  | .status => s.statusWord.setWidth 32
  | .result => s.resultWord.setWidth 32
  | .evt => s.evt.setWidth 32
  | .evtEn => s.evtEn.setWidth 32
  | .evtCode => s.evtCode.setWidth 32
  | .channel => s.channel.setWidth 32
  | .baud => s.baud
  | .x i => s.x[i].setWidth 32
  | .idIn => s.idIn.setWidth 32
  | .fmt => s.fmt.setWidth 32
  | .hlen => s.hlen.setWidth 32
  | .entryCount => s.entryCount.setWidth 32
  | .expectLen => s.expectLen
  | .txlen => s.txlen.setWidth 32
  | .payloadRetryLimit => s.payloadRetryLimit.setWidth 32
  | .errcode => s.errcode.setWidth 32
  | .param1 => s.param1.setWidth 32
  | .param2 => s.param2.setWidth 32
  | .declen => s.declen
  | .rlen => s.rlen
  | .idLo => s.idLo.setWidth 32
  | .idHi => s.idHi.setWidth 32
  | .nextFree => s.nextFree.setWidth 32
  | .dirCount => s.dirCount.setWidth 32
  | .lcmd => s.lcmd.setWidth 32
  | .retry => s.retry.setWidth 32
  | .pretry => s.pretry.setWidth 32
  | .wtimer => s.wtimer

/-- A host register read: 0 where no register has the number (R26). -/
def State.readReg (s : State) (n : Nat) : BusWord :=
  match hostReg n with
  | some r => s.regValue r
  | none => 0

/-- A write that reaches its register: the low bits are kept (R26), STATUS and EVT are
write-1-to-clear (R17, R19), and the read-only registers and a CTRL write without START change nothing
(R16 to R22). -/
def State.regStore (r : HostReg) (v : BusWord) (s : State) : State :=
  match r with
  | .status => s.clearWarnings v
  | .evt => s.clearEvents v
  | .evtEn => { s with evtEn := v.setWidth 4 }
  | .channel => { s with channel := v.setWidth 8 }
  | .baud => { s with baud := v }
  | .x i => { s with x := s.x.set i (v.setWidth 8) }
  | .idIn => { s with idIn := v.setWidth 16 }
  | .fmt => { s with fmt := v.setWidth 1 }
  | .hlen => { s with hlen := v.setWidth 16 }
  | .entryCount => { s with entryCount := v.setWidth 16 }
  | .expectLen => { s with expectLen := v }
  | .txlen => { s with txlen := v.setWidth 16 }
  | .payloadRetryLimit => { s with payloadRetryLimit := v.setWidth 16 }
  | .rlen => { s with rlen := v }
  | .ctrl | .result | .evtCode | .errcode | .param1 | .param2 | .declen | .idLo | .idHi | .nextFree
  | .dirCount | .lcmd | .retry | .pretry | .wtimer => s

/-- The registers a host may write while BUSY = 1: the write-1-to-clear bits of STATUS and EVT, and
EVT_EN (R25). -/
def HostReg.openWhileBusy : HostReg → Bool
  | .status | .evt | .evtEn => true
  | .ctrl | .result | .evtCode | .channel | .baud | .x _ | .idIn | .fmt | .hlen | .entryCount
  | .expectLen | .txlen | .payloadRetryLimit | .errcode | .param1 | .param2 | .declen | .rlen | .idLo
  | .idHi | .nextFree | .dirCount | .lcmd | .retry | .pretry | .wtimer => false

/-- A host register write (R25, R26). A write to a number that no register has changes nothing while
BUSY = 0 and is flagged like every other while BUSY = 1 (R25, D4, U15; assumption log 7). -/
def State.hostWrite (n : Nat) (v : BusWord) (s : State) : State :=
  match hostReg n with
  | none => s.whenIdle fun s => s
  | some r => if r.openWhileBusy then s.regStore r v else s.whenIdle (State.regStore r v)

/-- The byte buffer of a space number (R23). -/
def bufOfSpace (n : Nat) : Option Buf :=
  match n with
  | 0 => some .txf
  | 1 => some .ack
  | 2 => some .pbuf
  | 3 => some .hbuf
  | 4 => some .tbuf
  | 5 => some .ibuf
  | _ => none

/-- The buffers R23 marks host-writable. -/
def Buf.hostWritable : Buf → Bool
  | .ack | .pbuf | .hbuf | .tbuf => true
  | .txf | .ibuf => false

/-- A host buffer read: 0 at or beyond the size of the space (R26); space 6 is DIRMAP, one bit wide
(R23, R52). -/
def State.readBuf (s : State) (space i : Nat) : BusWord :=
  match bufOfSpace space with
  | some b => if i < b.size s.cfg then (s.byteAt b i).setWidth 32 else 0
  | none =>
    if space = 6 ∧ i < Config.dirSize then (BitVec.ofBool (s.dirBit i)).setWidth 32 else 0

/-- A buffer write while BUSY = 0: it stores into a host-writable element (R23), and is ignored at or
beyond the size of the space (R26). DIRMAP is not host-writable (R23). -/
def State.bufStore (space i : Nat) (v : Byte) (s : State) : State :=
  match bufOfSpace space with
  | some b => if b.hostWritable ∧ i < b.size s.cfg then s.writeBytes b i [v] else s
  | none => s

/-- A host buffer write: ignored and flagged while BUSY = 1, whatever it addresses (R25, D4, U15;
assumption log 7). -/
def State.hostBufWrite (space i : Nat) (v : Byte) (s : State) : State :=
  s.whenIdle (State.bufStore space i v)

end Sys2Proof.Machine
end

