-- ==== Sys2Proof/Machine/Environment.lean ====
section
/-! DEFINITION. The environment events: which of them carry an instruction word, what the others do, and
the order in which events of one clock cycle are taken (`00_scope.md` R5; `42_transport_session.md` R147;
`60_exceptions.md` R236). -/

namespace Sys2Proof.Machine

/-- The two bytes of a CTRL write, bits 7:0 first (R16). -/
def ctrlWord (v : BusWord) : List Byte := [v.setWidth 8, (v >>> 8).setWidth 8]

/-- The instruction word an event carries: a CTRL write (register number 0x00) or a command frame. -/
def EnvEvent.word : EnvEvent → Option (List Byte)
  | .hostWrite n v => if n = 0 then some (ctrlWord v) else none
  | .hostCommand f => some f.toList
  | .hostBufWrite _ _ _ | .hostRead _ | .hostBufRead _ _ | .tpOpenOk | .tpOpenFail | .txWritten
  | .rxChunk _ _ | .tick | .presenceEdge | .reset => none

/-- The operands a frame spells (R70). -/
def frameOperands (f : Vector Byte 12) : FrameArgs :=
  ⟨f[0], f[2], f[3], f[4], f[5], f[6], f[7], f[8], f[9]⟩

/-- A transport event where no rule is enabled for it (R5, R147). -/
def State.notEnabled (e : EnvEvent) (s : State) : Host.Outcome State Fault Refusal :=
  .fault (.eventNotEnabled e s.st)

/-- What an event does, apart from the instructions it may start (R10, R147). -/
def State.react (e : EnvEvent) (s : State) : Host.Outcome State Fault Refusal :=
  match e with
  | .hostWrite n v => .next (s.hostWrite n v)
  | .hostBufWrite space i v => .next (s.hostBufWrite space i v)
  | .hostRead n => .next (s.pulse (.readData (s.readReg n)))
  | .hostBufRead space i => .next (s.pulse (.readData (s.readBuf space i)))
  | .hostCommand f => .next (s.issue f[1] (frameOperands f))
  | .tpOpenOk =>
    match s.st with
    | .configuring => .next s.onTpOpenOk
    | .idle | .sending | .awaitingAck | .awaitingPayload | .failed => s.notEnabled e
  | .tpOpenFail =>
    match s.st with
    | .configuring => .next s.onTpOpenFail
    | .idle | .sending | .awaitingAck | .awaitingPayload | .failed => s.notEnabled e
  | .txWritten =>
    match s.st with
    | .sending => .next s.onTxWritten
    | .idle | .configuring | .awaitingAck | .awaitingPayload | .failed => s.notEnabled e
  | .rxChunk b bs =>
    match s.st with
    | .awaitingAck => .next (s.onChunkAck (b :: bs))
    | .awaitingPayload => .next (s.onChunkPayload (b :: bs))
    | .idle | .configuring | .sending | .failed => s.notEnabled e
  | .tick => .next s.onTick
  | .presenceEdge => .next s.onPresence
  | .reset => .next s.onReset

/-- An event whose word is no instruction. A CTRL write with START = 0 is an ordinary register write
(R16), an unassigned OP is refused (R201), a lawful frame of another command byte is what its register
writes and the start of RUN are (R191), and anything else is no command frame. -/
def State.undecoded (err : DecodeError) (e : EnvEvent) (s : State) : Host.Outcome State Fault Refusal :=
  match err with
  | .startNotSet => s.react e
  | .illegalOp _ => .next s.illegalStart
  | .unknownCommand _ _ => s.react e
  | .badLength _ | .reservedNotZero _ | .checksumMismatch _ => .refused (.notAFrame err)

/-- The rank of an event among those of one clock cycle (R236). -/
def EnvEvent.rank : EnvEvent → Nat
  | .reset => 0
  | .tpOpenFail => 1
  | .tpOpenOk => 2
  | .txWritten => 3
  | .rxChunk _ _ => 4
  | .tick => 5
  | .presenceEdge => 6
  | .hostWrite _ _ | .hostBufWrite _ _ _ | .hostRead _ | .hostBufRead _ _ | .hostCommand _ => 7

/-- Places an event before the first of higher rank. -/
def insertByRank (e : EnvEvent) : List EnvEvent → List EnvEvent
  | [] => [e]
  | f :: fs => if e.rank < f.rank then e :: f :: fs else f :: insertByRank e fs

/-- The events of one clock cycle in the order they are taken (R236). -/
def arbitrate (es : List EnvEvent) : List EnvEvent := es.foldl (fun acc e => insertByRank e acc) []

/-- The events of one clock cycle join the queue of pending events (R56, R236). -/
def State.deliver (es : List EnvEvent) (s : State) : State :=
  { s with inbox := s.inbox ++ arbitrate es }

/-- The event that issues an opcode-table word: the CTRL write of a host operation, or the frame of a
device command. -/
def tableEvent (nbits w : Nat) : EnvEvent :=
  let b := fun i => (tableBytes nbits w).getD i 0
  if nbits ≤ 16 then .hostWrite 0 ((b 1 ++ b 0).setWidth 32)
  else .hostCommand #v[b 0, b 1, b 2, b 3, b 4, b 5, b 6, b 7, b 8, b 9, b 10, b 11]

end Sys2Proof.Machine
end

