-- ==== Sys2Proof/Machine/Step.lean ====
section
/-! DEFINITION. One step: the next pending environment event is taken (`10_state.md` R10, `20_memory.md`
R56). FPC has no step of its own, so with no event pending nothing changes (R10, R30). -/

namespace Sys2Proof.Machine

/-- One event taken: the instruction its word decodes to, or what the event does. -/
def runEvent (e : EnvEvent) (s : State) : Host.Outcome State Fault Refusal :=
  match e.word with
  | some w =>
    match decode w with
    | .ok i => exec i s
    | .error err => s.undecoded err e
  | none => s.react e

/-- One step of the machine. -/
def step (s : State) : Host.Outcome State Fault Refusal :=
  match s.inbox with
  | [] => .next s
  | e :: es => runEvent e { s with inbox := es }

/-- The state with an opcode-table word as the next event the step takes. -/
def State.withFetchWord (s : State) (nbits w : Nat) : State :=
  { s with inbox := tableEvent nbits w :: s.inbox }

end Sys2Proof.Machine
end

