-- ==== Sys2Proof/Safety.lean ====
section
/-! DEFINITION. What counts as a legal state and a safe step, in the terms the claims use. Each predicate
is an invariant of its own. -/

namespace Sys2Proof.Machine

/-- `n` steps of the machine, stopping at the first fault or refusal. -/
def runFor (n : Nat) (s : State) : Host.Outcome State Fault Refusal := Host.Core.run Sys2Proof.core n s

/-- The buffers are in canonical form and list no index at or beyond their size (`20_memory.md` R53);
the decoded directory is an increasing list of ids below 10000, counted by DIR_COUNT (`10_state.md` R22,
`43_record_codec.md` R174, R177). -/
structure State.BuffersLegal (s : State) : Prop where
  canonical : ∀ b, (s.bufOf b).wf
  inside : ∀ b, (s.bufOf b).within (b.size s.cfg)
  directory : ∀ ids, s.dirmap = some ids →
    ids.Pairwise (· < ·) ∧ (∀ i ∈ ids, i < Config.dirSize) ∧ s.dirCount.toNat = ids.length
  noDirectory : s.dirmap = none → s.dirCount = 0

/-- The ranges of the result registers (`10_state.md` R20 to R22). -/
structure State.ValuesInRange (s : State) : Prop where
  param1 : s.param1.toNat ≤ 9999
  param2 : s.param2.toNat ≤ 9999
  nextFree : s.nextFree.toNat ≤ 10000
  dirCount : s.dirCount.toNat ≤ 10000
  retry : s.retry.toNat ≤ 5

/-- BUSY and ST agree, every counter is short of the value that would end its wait, and each state of a
cycle holds what the rules leave in it (`44_device_facade.md` R190 to R195; `42_transport_session.md`
R131 to R145). -/
structure State.SequencerLegal (s : State) : Prop where
  busyIffInCycle : s.busy = s.st.inCycle
  commandLegal : s.busy = true → Command.ofByte s.lcmd ≠ none
  recordFits : s.busy = true → s.lcmd = 0x71 → s.txlen.toNat ≤ 1616
  imageFits : s.busy = true → s.lcmd = 0x43 → s.expectLen.toNat ≤ s.cfg.pbufCap
  nothingReceived : s.st = .configuring ∨ s.st = .sending → s.rlen = 0
  writeRuns : s.st = .sending → s.wtimer.toNat < s.cfg.writeTimeoutTicks
  windowRuns : s.st = .awaitingAck ∨ s.st = .awaitingPayload → s.wtimer.toNat < s.cfg.rxWindowTicks
  ackPending : s.st = .awaitingAck → s.rlen.toNat < 12 ∧ s.retry.toNat < 5 ∧ s.lcmd ≠ 0x21
  payloadPending : s.st = .awaitingPayload → s.errcode = 0 ∧ 12 ≤ s.rlen.toNat ∧
    s.rlen.toNat - 12 < s.declen.toNat ∧ (s.lcmd = 0x43 ∨ s.lcmd = 0x7D)
  payloadBudget : s.st = .awaitingPayload → s.payloadRetryLimit ≠ 0 →
    s.pretry.toNat < s.payloadRetryLimit.toNat

/-- TXF holds nothing or a lawful frame, and while a cycle is in flight the frame of its command
(`40_frame_codec.md` R102, `44_device_facade.md` R190). -/
structure State.FrameLegal (s : State) : Prop where
  lawful : s.txf ≠ [] → ∃ f, s.txf = cellsFrom 0 f ∧ frameLawful f = true
  latched : s.busy = true → ∃ f, s.txf = cellsFrom 0 f ∧ frameLawful f = true ∧ f[1]? = some s.lcmd

/-- A pending bit of EVT has an event of its kind in EVLOG, and every DEVERR event carries a non-zero
code (`60_exceptions.md` R240, R241). -/
structure State.EventsLegal (s : State) : Prop where
  logged : ∀ k : EvKind, s.evt &&& k.mask ≠ 0 → ∃ c, (k, c) ∈ s.evlog
  codes : ∀ c, (EvKind.deverr, c) ∈ s.evlog → ∃ b, c = some b ∧ b ≠ 0

/-- How one port pulse moves the transport between closed (`some false`) and open (`some true`); `none`
once the discipline is broken: an open while open, or a close, an error clear or a transmitted byte
while closed (`42_transport_session.md` R130, R146; `70_reset_and_hazards.md` R279). -/
def sessionAfter (q : Option Bool) (p : Pulse) : Option Bool :=
  match q, p with
  | some false, .tpOpenReq _ _ => some true
  | some true, .tpClose => some false
  | some true, .tpClearError => some true
  | some true, .txData _ => some true
  | some o, .evtDeverr _ => some o
  | some o, .evtTimeout => some o
  | some o, .evtPresence => some o
  | some o, .readData _ => some o
  | _, _ => none

/-- The port log opens and closes the transport in turn, once per cycle, and it is open exactly while a
cycle is in flight (R130, R146, R279). -/
def State.PortsBracketed (s : State) : Prop := s.portlog.foldl sessionAfter (some false) = some s.busy

/-- The environment may deliver this event in this sequencer state (`42_transport_session.md` R147). -/
def EnvEvent.enabledIn (e : EnvEvent) (st : SeqState) : Bool :=
  match e with
  | .tpOpenOk | .tpOpenFail => st == .configuring
  | .txWritten => st == .sending
  | .rxChunk _ _ => st == .awaitingAck || st == .awaitingPayload
  | .hostCommand f => frameLawful f.toList
  | .hostWrite _ _ | .hostBufWrite _ _ _ | .hostRead _ | .hostBufRead _ _ | .tick | .presenceEdge
  | .reset => true

end Sys2Proof.Machine
end

