-- ==== Sys2Proof/Certificates/Slice0/Obligations.lean ====
section
/-! DEFINITION. The statements for the provers. Each docstring names the rules of spec/ it formalises. A
frame is written by erasure: the next state, with the fields the rule lets change put back as they were,
IS the old state, so that every other register, flag, buffer and log is unchanged. `portlog` records the
port pulses of R33 (assumption log 10) and `inbox` the events still to come (log 2); both are the model's
own. -/

section
open Sys2Proof Sys2Proof.Machine

/-! ### Words -/

/-- R70, R83, R90: decoding the encoding of an instruction gives it back, for every instruction and
every operand. -/
def Obligations.DecodeEncodeAgree : Prop :=
  ∀ i : Instr, i.wellFormed = true → decode (encode i) = .ok i

/-- R70, R82, R84: a 12-byte word that decodes is the encoding of what it decodes to (so its reserved
byte is 0x00 and its last byte the checksum), and its byte 1 alone says which command it is. -/
def Obligations.DecodedFrameReencodes : Prop :=
  ∀ (w : List Byte) (i : Instr), w.length = 12 → decode w = .ok i →
    encode i = w ∧ frameLawful w = true ∧ ∃ c a, Command.ofByte (w.getD 1 0) = some c ∧ i = c.instr a

/-- R16, R84, R90: a CTRL write starts operation number OP exactly when START is 1 and OP is 1 to 8,
whatever its other bits hold. That bits 7:4, 15:9 and above are ignored is the model's reading (log 8). -/
def Obligations.CtrlWriteSelectsOperation : Prop :=
  ∀ (v : BusWord) (i : Instr), decode (ctrlWord v) = .ok i ↔
    v.getLsbD 8 = true ∧
      ((v.toNat % 16 = 1 ∧ i = .build) ∨ (v.toNat % 16 = 2 ∧ i = .run) ∨
       (v.toNat % 16 = 3 ∧ i = .id2b) ∨ (v.toNat % 16 = 4 ∧ i = .decack) ∨
       (v.toNat % 16 = 5 ∧ i = .enctpl) ∨ (v.toNat % 16 = 6 ∧ i = .decdir) ∨
       (v.toNat % 16 = 7 ∧ i = .nextfree) ∨ (v.toNat % 16 = 8 ∧ i = .flipimg))

/-- Words written out from R70, R82 and from R16, R90, one for each family. -/
def Obligations.SampleWordsDecode : Prop :=
  decode [0x00, 0x7D, 0, 0, 0, 0, 0, 0, 0, 0, 0x00, 0x7D] = .ok (.list ⟨0, 0, 0, 0, 0, 0, 0, 0, 0⟩) ∧
  decode [0xA5, 0x55, 0x23, 0x01, 0, 0, 0, 0, 0, 0, 0x00, 0x79]
    = .ok (.verify ⟨0xA5, 0x23, 0x01, 0, 0, 0, 0, 0, 0⟩) ∧
  decode [0x00, 0x71, 0x23, 0x01, 0x00, 0x00, 0x30, 0x03, 0x00, 0x00, 0x00, 0xC8]
    = .ok (.putTemplate ⟨0, 0x23, 0x01, 0, 0, 0x30, 0x03, 0, 0⟩) ∧
  decode [0x01, 0x01] = .ok .build ∧ decode [0x02, 0x01] = .ok .run ∧
  decode [0x07, 0x01] = .ok .nextfree ∧ decode [0x09, 0x01] = .error (.illegalOp 9)

/-! ### Steps -/

/-- R5, R16, R56: when the next event's bytes decode to an instruction, the step is exec of it, on the
state with that event taken off the queue; nothing else is added around exec. The event queue is the
model's own (log 2). -/
def Obligations.StepRunsDecodedInstruction : Prop :=
  ∀ (s : State) (e : EnvEvent) (es : List EnvEvent) (w : List Byte) (i : Instr),
    s.inbox = e :: es → e.word = some w → decode w = .ok i → i.wellFormed = true →
      step s = exec i { s with inbox := es }

/-- R5, R10, R147: with no event pending nothing changes; otherwise the step answers a next state exactly
when the pending event is enabled in the sequencer state. That a disabled event stops
the model is the model's choice (log 9). -/
def Obligations.StepCompletesExactlyOnEnabledEvents : Prop :=
  ∀ s : State, (s.inbox = [] → step s = .next s) ∧
    ∀ e es, s.inbox = e :: es → ((∃ t, step s = .next t) ↔ e.enabledIn s.st = true)

/-! ### Frame Codec -/

/-- R101: the checksum byte of every frame is the sum of bytes 1 to 9 modulo 256, which is also their sum
in an 8-bit accumulator; the channel takes no part. -/
def Obligations.FrameChecksumSumsBytesOneToNine : Prop :=
  ∀ (cmd : Byte) (a : FrameArgs),
    ((frameBytes cmd a).getD 11 0).toNat
      = (cmd.toNat + a.p1l.toNat + a.p1h.toNat + a.p2l.toNat + a.p2h.toNat + a.eal.toNat + a.eah.toNat
          + a.ebl.toNat + a.ebh.toNat) % 256 ∧
    (frameBytes cmd a).getD 11 0
      = cmd + a.p1l + a.p1h + a.p2l + a.p2h + a.eal + a.eah + a.ebl + a.ebh ∧
    ∀ ch, (frameBytes cmd { a with channel := ch }).getD 11 0 = (frameBytes cmd a).getD 11 0

/-- R100: BUILD, while BUSY = 0, writes the frame of CHANNEL and x[0..8] to TXF, ends with (OK, 0) and
DONE, and changes nothing else; while BUSY = 1 it is ignored and flagged. -/
def Obligations.BuildWritesFrame : Prop :=
  ∀ s : State, (s.busy = true → exec .build s = .next { s with wBusyViol := true }) ∧
    (s.busy = false → ∃ t, exec .build s = .next t ∧
    t.bytesFrom .txf 0 12 = [s.channel, s.x[0], s.x[1], s.x[2], s.x[3], s.x[4], s.x[5], s.x[6], s.x[7], s.x[8],
      0x00, BitVec.ofNat 8 (s.x[0].toNat + s.x[1].toNat + s.x[2].toNat + s.x[3].toNat + s.x[4].toNat
        + s.x[5].toNat + s.x[6].toNat + s.x[7].toNat + s.x[8].toNat)] ∧
    (∀ i, 12 ≤ i → t.byteAt .txf i = s.byteAt .txf i) ∧
    t.resultClass = .ok ∧ t.resultCode = 0 ∧ t.evt = s.evt ||| 1 ∧ t.evlog = s.evlog ++ [(.done, none)] ∧
    { t with txf := s.txf, resultClass := s.resultClass, resultCode := s.resultCode, evt := s.evt,
             evlog := s.evlog } = s)

/-! ### RUN and the gate of every operation -/

/-- R190, R130: RUN with a command byte among the eleven and none of the other two refusals is accepted:
the frame is latched into TXF, the cycle's registers are cleared, the transport is opened at BAUD, and
nothing else changes. -/
def Obligations.RunAcceptedStartsCycle : Prop :=
  ∀ s : State, s.busy = false → Command.ofByte s.x[0] ≠ none →
    (s.x[0] = 0x71 → s.txlen.toNat ≤ 1616) → (s.x[0] = 0x43 → s.expectLen.toNat ≤ s.cfg.pbufCap) →
    ∃ t, exec .run s = .next t ∧
      t.bytesFrom .txf 0 12 = s.frame ∧ (∀ i, 12 ≤ i → t.byteAt .txf i = s.byteAt .txf i) ∧
      { t with txf := s.txf } =
        { s with
          busy := true, lcmd := s.x[0], rlen := 0, retry := 0, pretry := 0, wtimer := 0
          errcode := 0, param1 := 0, param2 := 0, p1Valid := false, p2Valid := false, declen := 0
          resultClass := .ok, resultCode := 0, degraded := false, st := .configuring
          portlog := s.portlog ++ [.tpOpenReq s.baud ⟨8, false, 1, false⟩, .tpClearError] }

/-- R191, R238: RUN is refused with the code of the first condition that holds, in this order; only
RESULT and the DONE event change. While BUSY = 1 it is not refused but ignored and flagged. -/
def Obligations.RunRefusedByFirstCondition : Prop :=
  ∀ s : State, (s.busy = true → exec .run s = .next { s with wBusyViol := true }) ∧
    (s.busy = false →
    let refused := fun code : Byte =>
      exec .run s = .next { s with resultClass := .illegalRequest, resultCode := code, evt := s.evt ||| 1,
                                   evlog := s.evlog ++ [(.done, none)] }
    (Command.ofByte s.x[0] = none → refused 0x02) ∧
    (s.x[0] = 0x71 → 1616 < s.txlen.toNat → refused 0x03) ∧
    (s.x[0] = 0x43 → s.cfg.pbufCap < s.expectLen.toNat → refused 0x04))

/-- R25, R216: while BUSY = 1 the start of any instruction is ignored and sets W_BUSYVIOL. A device command
is the model's composite of eleven such accesses (log 1). -/
def Obligations.StartIgnoredWhileBusy : Prop :=
  ∀ (i : Instr) (s : State), s.busy = true → exec i s = .next { s with wBusyViol := true }

/-- R201, R84: a CTRL write with START = 1 and OP 0 or 9 to 15 while BUSY = 0 is refused with code 0x01;
nothing else changes. With START = 0 it changes nothing (R16). That it holds whatever CTRL's other bits
hold is the model's reading (log 8). -/
def Obligations.UnassignedOperationRefused : Prop :=
  ∀ (s : State) (es : List EnvEvent) (v : BusWord), s.busy = false → s.inbox = .hostWrite 0 v :: es →
    (v.getLsbD 8 = true → (v.toNat % 16 = 0 ∨ 9 ≤ v.toNat % 16) →
      step s = .next { s with resultClass := .illegalRequest, resultCode := 0x01, evt := s.evt ||| 1,
                              evlog := s.evlog ++ [(.done, none)], inbox := es }) ∧
    (v.getLsbD 8 = false → step s = .next { s with inbox := es })

/-- R199: in Failed every instruction does what it does in Idle; an operation that leaves ST alone leaves
it Failed. -/
def Obligations.FailedActsAsIdle : Prop :=
  ∀ (i : Instr) (s : State), s.st = .failed → ∃ t u,
    exec i s = .next t ∧ exec i { s with st := .idle } = .next u ∧ { t with st := u.st } = u ∧
    ((t.st = .failed ∧ u.st = .idle) ∨ (t.st = .configuring ∧ u.st = .configuring))

/-! ### The device commands -/

/-- R204 to R211, R214, R215, R190: each of the nine commands without a refusal of its own, issued while
BUSY = 0, loads the operand registers and starts its cycle, whatever its operand bytes. That a command is one
instruction is the model's choice (log 1). -/
def Obligations.CommandsStartTheirCycle : Prop :=
  ∀ (a : FrameArgs) (s : State) (i : Instr) (cmd : Byte),
    (i, cmd) ∈ [(Instr.baud a, (0x21 : Byte)), (.status a, 0x30), (.enrollStart a, 0x50),
      (.enrollFinish a, 0x51), (.delete a, 0x54), (.verify a, 0x55), (.identify a, 0x56),
      (.getTemplate a, 0x73), (.list a, 0x7D)] → s.busy = false →
    ∃ t, exec i s = .next t ∧
      t.bytesFrom .txf 0 12 = encode i ∧ (∀ k, 12 ≤ k → t.byteAt .txf k = s.byteAt .txf k) ∧
      { t with txf := s.txf } =
        { s with
          channel := a.channel, x := #v[cmd, a.p1l, a.p1h, a.p2l, a.p2h, a.eal, a.eah, a.ebl, a.ebh]
          busy := true, lcmd := cmd, rlen := 0, retry := 0, pretry := 0, wtimer := 0
          errcode := 0, param1 := 0, param2 := 0, p1Valid := false, p2Valid := false, declen := 0
          resultClass := .ok, resultCode := 0, degraded := false, st := .configuring
          portlog := s.portlog ++ [.tpOpenReq s.baud ⟨8, false, 1, false⟩, .tpClearError] }

/-- R212, R213, R191: GET_IMAGE with EXPECT_LEN at most PBUF_CAP and PUT_TEMPLATE with TXLEN at most
1616, issued while BUSY = 0, start their cycles. That a command is one instruction is
the model's choice (log 1). -/
def Obligations.ImageAndTemplateCommandsStartTheirCycle : Prop :=
  ∀ (a : FrameArgs) (s : State) (i : Instr) (cmd : Byte), s.busy = false →
    ((i, cmd) = (Instr.getImage a, (0x43 : Byte)) ∧ s.expectLen.toNat ≤ s.cfg.pbufCap) ∨
      ((i, cmd) = (Instr.putTemplate a, (0x71 : Byte)) ∧ s.txlen.toNat ≤ 1616) →
    ∃ t, exec i s = .next t ∧
      t.bytesFrom .txf 0 12 = encode i ∧ (∀ k, 12 ≤ k → t.byteAt .txf k = s.byteAt .txf k) ∧
      { t with txf := s.txf } =
        { s with
          channel := a.channel, x := #v[cmd, a.p1l, a.p1h, a.p2l, a.p2h, a.eal, a.eah, a.ebl, a.ebh]
          busy := true, lcmd := cmd, rlen := 0, retry := 0, pretry := 0, wtimer := 0
          errcode := 0, param1 := 0, param2 := 0, p1Valid := false, p2Valid := false, declen := 0
          resultClass := .ok, resultCode := 0, degraded := false, st := .configuring
          portlog := s.portlog ++ [.tpOpenReq s.baud ⟨8, false, 1, false⟩, .tpClearError] }

/-- R92, R204: issuing a device command is, in every state, what its ten operand writes and the start of
RUN do when the host makes them one after another. It
justifies the composite of log 1. -/
def Obligations.CommandIsItsHostWrites : Prop :=
  ∀ (c : Command) (a : FrameArgs) (s : State) (es : List EnvEvent),
    runFor 11 { s with inbox :=
      [.hostWrite 0x06 (a.channel.setWidth 32), .hostWrite 0x08 (c.byte.setWidth 32),
       .hostWrite 0x09 (a.p1l.setWidth 32), .hostWrite 0x0A (a.p1h.setWidth 32),
       .hostWrite 0x0B (a.p2l.setWidth 32), .hostWrite 0x0C (a.p2h.setWidth 32),
       .hostWrite 0x0D (a.eal.setWidth 32), .hostWrite 0x0E (a.eah.setWidth 32),
       .hostWrite 0x0F (a.ebl.setWidth 32), .hostWrite 0x10 (a.ebh.setWidth 32),
       .hostWrite 0x00 0x102] ++ es }
    = exec (c.instr a) { s with inbox := es }

/-! ### Record Codec -/

/-- R165: ID2B writes the two packed-decimal bytes of ID_IN, and refuses an id above 9999 with code 0x05
and ID_LO, ID_HI unchanged. -/
def Obligations.Id2bWritesDecimalDigits : Prop :=
  ∀ s : State, s.busy = false →
    let n := s.idIn.toNat
    (n ≤ 9999 → exec .id2b s = .next { s with
      idLo := BitVec.ofNat 8 (16 * (n / 10 % 10) + n % 10)
      idHi := BitVec.ofNat 8 (16 * (n / 1000) + n / 100 % 10)
      resultClass := .ok, resultCode := 0, evt := s.evt ||| 1, evlog := s.evlog ++ [(.done, none)] }) ∧
    (9999 < n → exec .id2b s = .next { s with
      resultClass := .illegalRequest, resultCode := 0x05, evt := s.evt ||| 1,
      evlog := s.evlog ++ [(.done, none)] })

/-- R165: the digit form equals the document's string form. For an id below 100 the whole decimal string,
read as hexadecimal, is the low byte; otherwise the last two characters are the low byte and the leading
ones the high byte. -/
def Obligations.IdBytesAreHexReadDecimalString : Prop :=
  ∀ id : Nat, id ≤ 9999 →
    (id < 100 → (id2bLow id).toNat = Nat.ofDigits 16 (Nat.digits 10 id) ∧ id2bHigh id = 0) ∧
    (100 ≤ id → (id2bLow id).toNat = Nat.ofDigits 16 ((Nat.digits 10 id).take 2) ∧
      (id2bHigh id).toNat = Nat.ofDigits 16 ((Nat.digits 10 id).drop 2))

/-- R112, R113, R165: pairval is valid exactly when all four nibbles are decimal; then its value is at
most 9999 and id2b gives the two bytes back; otherwise its value is 0; and id2b then pairval is the
identity on 0 to 9999. The 0 of an invalid pair is R113's (log 18). -/
def Obligations.PackedDecimalRoundTrip : Prop :=
  (∀ id : Nat, id ≤ 9999 → pairval (id2bLow id) (id2bHigh id) = (id, true)) ∧
  ∀ lo hi : Byte,
    ((pairval lo hi).2 = true ↔ lo.toNat / 16 ≤ 9 ∧ lo.toNat % 16 ≤ 9 ∧ hi.toNat / 16 ≤ 9 ∧ hi.toNat % 16 ≤ 9) ∧
    ((pairval lo hi).2 = true → (pairval lo hi).1 ≤ 9999 ∧ id2bLow (pairval lo hi).1 = lo ∧
      id2bHigh (pairval lo hi).1 = hi) ∧
    ((pairval lo hi).2 = false → (pairval lo hi).1 = 0)

/-- R167: what ENCTPL may change, whatever it does: TBUF below the record's size (none of it where the
request is refused), TXLEN, the two template flags, RESULT and the DONE event. -/
def Obligations.EnctplFrame : Prop :=
  ∀ s : State, s.busy = false → ∃ t, exec .enctpl s = .next t ∧
    (∀ i, (if s.fmt = 1 then 816 else 1616) ≤ i → t.byteAt .tbuf i = s.byteAt .tbuf i) ∧
    t.evt = s.evt ||| 1 ∧ t.evlog = s.evlog ++ [(.done, none)] ∧
    { t with tbuf := s.tbuf, txlen := s.txlen, wTplClip := s.wTplClip, wTplOor := s.wTplOor,
             resultClass := s.resultClass, resultCode := s.resultCode, evt := s.evt, evlog := s.evlog } = s

/-- R167: the refusals of ENCTPL, tested in this order, write nothing but RESULT and DONE. -/
def Obligations.EnctplRefused : Prop :=
  ∀ s : State, s.busy = false →
    let refused := fun code : Byte =>
      exec .enctpl s = .next { s with resultClass := .illegalRequest, resultCode := code,
                                      evt := s.evt ||| 1, evlog := s.evlog ++ [(.done, none)] }
    (9999 < s.idIn.toNat → refused 0x05) ∧
    (s.idIn.toNat ≤ 9999 → 1600 < s.hlen.toNat → refused 0x06) ∧
    (s.idIn.toNat ≤ 9999 → s.fmt = 0 → s.hlen.toNat < 10 → refused 0x06)

/-- R75, R166, R172: the Format B record, byte by byte: id bytes, zeros, the hash up to 800 bytes, zeros
to the slot boundary, twelve bytes of 0xFF. -/
def Obligations.EnctplFormatBRecord : Prop :=
  ∀ s : State, s.busy = false → s.fmt = 1 → s.idIn.toNat ≤ 9999 → s.hlen.toNat ≤ 1600 →
    ∃ t, exec .enctpl s = .next t ∧ t.resultClass = .ok ∧ t.resultCode = 0 ∧ t.txlen = 816 ∧
      t.byteAt .tbuf 0 = id2bLow s.idIn.toNat ∧ t.byteAt .tbuf 1 = id2bHigh s.idIn.toNat ∧
      t.byteAt .tbuf 2 = 0x00 ∧ t.byteAt .tbuf 3 = 0x00 ∧
      (∀ j, j < 800 → t.byteAt .tbuf (4 + j) = if j < s.hlen.toNat then s.byteAt .hbuf j else 0x00) ∧
      (∀ j, j < 12 → t.byteAt .tbuf (804 + j) = 0xFF) ∧
      t.wTplClip = (s.wTplClip || decide (800 < s.hlen.toNat)) ∧ t.wTplOor = s.wTplOor

/-- R74, R168 to R171: the Format A record of two templates (the hash is longer than its own length
field L1): T1 is the first L1 bytes, T2 the bytes from L1 on, as many as T2's own length field says, each
clipped to its slot and to the hash, the rest of each slot zero. -/
def Obligations.EnctplFormatATwoTemplates : Prop :=
  ∀ s : State, s.busy = false → s.fmt = 0 → s.idIn.toNat ≤ 9999 → 10 ≤ s.hlen.toNat →
    s.hlen.toNat ≤ 1600 →
    let rd := fun i => if i < s.hlen.toNat then (s.byteAt .hbuf i).toNat else 0
    let l1 := 256 * rd 8 + rd 9
    let l2 := 256 * rd (l1 + 8) + rd (l1 + 9)
    let n2 := min l2 (min (s.hlen.toNat - l1) 800)
    l1 < s.hlen.toNat →
    ∃ t, exec .enctpl s = .next t ∧ t.resultClass = .ok ∧ t.resultCode = 0 ∧ t.txlen = 1616 ∧
      t.byteAt .tbuf 0 = id2bLow s.idIn.toNat ∧ t.byteAt .tbuf 1 = id2bHigh s.idIn.toNat ∧
      t.byteAt .tbuf 2 = 0x00 ∧ t.byteAt .tbuf 3 = 0x00 ∧
      (∀ j, j < 800 → t.byteAt .tbuf (4 + j) = if j < l1 then s.byteAt .hbuf j else 0x00) ∧
      (∀ j, j < 800 → t.byteAt .tbuf (804 + j) = if j < n2 then s.byteAt .hbuf (l1 + j) else 0x00) ∧
      (∀ j, j < 12 → t.byteAt .tbuf (1604 + j) = 0xFF) ∧
      t.wTplClip = (s.wTplClip || decide (800 < l1 ∨ n2 < l2)) ∧
      t.wTplOor = (s.wTplOor || decide (s.hlen.toNat ≤ l1 + 9))

/-- R74, R169, R171: the Format A record of one template (the hash is no longer than its length field):
both slots receive the same bytes. -/
def Obligations.EnctplFormatAOneTemplate : Prop :=
  ∀ s : State, s.busy = false → s.fmt = 0 → s.idIn.toNat ≤ 9999 → 10 ≤ s.hlen.toNat →
    s.hlen.toNat ≤ 1600 →
    s.hlen.toNat ≤ 256 * (s.byteAt .hbuf 8).toNat + (s.byteAt .hbuf 9).toNat →
    ∃ t, exec .enctpl s = .next t ∧ t.resultClass = .ok ∧ t.resultCode = 0 ∧ t.txlen = 1616 ∧
      t.byteAt .tbuf 0 = id2bLow s.idIn.toNat ∧ t.byteAt .tbuf 1 = id2bHigh s.idIn.toNat ∧
      t.byteAt .tbuf 2 = 0x00 ∧ t.byteAt .tbuf 3 = 0x00 ∧
      (∀ j, j < 800 → t.byteAt .tbuf (4 + j) = if j < s.hlen.toNat then s.byteAt .hbuf j else 0x00) ∧
      (∀ j, j < 800 → t.byteAt .tbuf (804 + j) = t.byteAt .tbuf (4 + j)) ∧
      (∀ j, j < 12 → t.byteAt .tbuf (1604 + j) = 0xFF) ∧
      t.wTplClip = (s.wTplClip || decide (800 < s.hlen.toNat)) ∧ t.wTplOor = s.wTplOor

/-- R174 to R177: DECDIR on a payload that holds ENTRY_COUNT strides sets exactly the bits of the entries
whose four nibbles are decimal, counts them, flags a bad nibble, and changes nothing else; on a shorter
payload it is refused with code 0x07. -/
def Obligations.DecdirDecodesDirectory : Prop :=
  ∀ s : State, s.busy = false →
    let entry := fun k => pairval (s.byteAt .pbuf (12 * k)) (s.byteAt .pbuf (12 * k + 1))
    (12 * s.entryCount.toNat ≤ s.plen → ∃ t, exec .decdir s = .next t ∧
      (∀ i, t.dirBit i = true ↔ ∃ k, k < s.entryCount.toNat ∧ entry k = (i, true)) ∧
      t.dirCount.toNat = ((List.range 10000).filter t.dirBit).length ∧
      (t.wBadDigit = true ↔ s.wBadDigit = true ∨ ∃ k, k < s.entryCount.toNat ∧ (entry k).2 = false) ∧
      t.resultClass = .ok ∧ t.resultCode = 0 ∧ t.evt = s.evt ||| 1 ∧
      t.evlog = s.evlog ++ [(.done, none)] ∧
      { t with dirmap := s.dirmap, dirCount := s.dirCount, wBadDigit := s.wBadDigit,
               resultClass := s.resultClass, resultCode := s.resultCode, evt := s.evt,
               evlog := s.evlog } = s) ∧
    (s.plen < 12 * s.entryCount.toNat → exec .decdir s = .next { s with
      resultClass := .illegalRequest, resultCode := 0x07, evt := s.evt ||| 1,
      evlog := s.evlog ++ [(.done, none)] })

/-- R203: NEXTFREE writes the least id from 1 to 9999 whose DIRMAP bit is 0, or 10000 where there is
none, and changes nothing else. Where no DECDIR has run the bits read are the unspecified ones, and the
statement holds for every value of them. -/
def Obligations.NextfreeFindsFirstGap : Prop :=
  ∀ s : State, s.busy = false → ∃ t, exec .nextfree s = .next t ∧
    ((1 ≤ t.nextFree.toNat ∧ t.nextFree.toNat ≤ 9999 ∧ s.dirBit t.nextFree.toNat = false ∧
        ∀ i, 1 ≤ i → i < t.nextFree.toNat → s.dirBit i = true) ∨
      (t.nextFree.toNat = 10000 ∧ ∀ i, 1 ≤ i → i ≤ 9999 → s.dirBit i = true)) ∧
    { t with nextFree := s.nextFree } =
      { s with resultClass := .ok, resultCode := 0, evt := s.evt ||| 1,
               evlog := s.evlog ++ [(.done, none)] }

/-- R180 to R182: FLIPIMG on a payload of at least 19500 bytes copies row i, column j to row 149 - i,
column j, writes no other byte of IBUF (not the two pad bytes of a row), and changes nothing else; on a
shorter payload it is refused with code 0x08. -/
def Obligations.FlipimgMovesPixels : Prop :=
  ∀ s : State, s.busy = false →
    (19500 ≤ s.plen → ∃ t, exec .flipimg s = .next t ∧
      (∀ i j, i < 150 → j < 130 →
        t.byteAt .ibuf (132 * (149 - i) + j) = s.byteAt .pbuf (130 * i + j)) ∧
      (∀ k, (19800 ≤ k ∨ 130 ≤ k % 132) → t.byteAt .ibuf k = s.byteAt .ibuf k) ∧
      { t with ibuf := s.ibuf } =
        { s with resultClass := .ok, resultCode := 0, evt := s.evt ||| 1,
                 evlog := s.evlog ++ [(.done, none)] }) ∧
    (s.plen < 19500 → exec .flipimg s = .next { s with
      resultClass := .illegalRequest, resultCode := 0x08, evt := s.evt ||| 1,
      evlog := s.evlog ++ [(.done, none)] })

/-! ### Response Decoder -/

/-- R110 to R118: DECACK decodes ACK for the command in x[0]: the error code, the two parameters at the
indices of ACKMAP with their valid bits (0 where a pair is invalid, as R113 says: log 18), the declared
length by command, W_BADDIGIT where a pair is invalid; it raises DONE only and changes nothing else. -/
def Obligations.DecackDecodesAcknowledgment : Prop :=
  ∀ s : State, s.busy = false →
    let err := s.byteAt .ack 2
    let p1 := pairval (s.byteAt .ack s.cfg.ackP1Lo) (s.byteAt .ack s.cfg.ackP1Hi)
    let p2 := pairval (s.byteAt .ack s.cfg.ackP2Lo) (s.byteAt .ack s.cfg.ackP2Hi)
    ∃ t, exec .decack s = .next t ∧
      t.errcode = err ∧ t.param1.toNat = p1.1 ∧ t.p1Valid = p1.2 ∧ t.param2.toNat = p2.1 ∧ t.p2Valid = p2.2 ∧
      (err ≠ 0 → t.declen.toNat = 0) ∧
      (err = 0 → s.x[0] = 0x7D → t.declen.toNat = p1.1 * 12) ∧
      (err = 0 → s.x[0] = 0x73 → t.declen.toNat = s.rlen.toNat - 12) ∧
      (err = 0 → s.x[0] = 0x43 → t.declen = s.expectLen) ∧
      (s.x[0] ≠ 0x7D → s.x[0] ≠ 0x73 → s.x[0] ≠ 0x43 → t.declen.toNat = 0) ∧
      t.wBadDigit = (s.wBadDigit || !p1.2 || !p2.2) ∧
      { t with errcode := s.errcode, param1 := s.param1, p1Valid := s.p1Valid, param2 := s.param2,
               p2Valid := s.p2Valid, declen := s.declen, wBadDigit := s.wBadDigit } =
        { s with resultClass := .ok, resultCode := 0, evt := s.evt ||| 1,
                 evlog := s.evlog ++ [(.done, none)] }

/-! ### Transport Session -/

/-- R131, R133, R81: when the transport has opened, the twelve bytes of TXF go out in order, followed for
command 0x71 and no other by TBUF[0..TXLEN-1], and the sequencer waits in Sending. -/
def Obligations.OpenOkSendsMessage : Prop :=
  ∀ (s : State) (es : List EnvEvent), s.st = .configuring → s.inbox = .tpOpenOk :: es →
    let bytes := (List.range 12).map (s.byteAt .txf)
      ++ if s.lcmd = 0x71 then (List.range s.txlen.toNat).map (s.byteAt .tbuf) else []
    step s = .next { s with
      txlog := s.txlog ++ bytes, portlog := s.portlog ++ bytes.map Pulse.txData,
      wtimer := 0, st := .sending, inbox := es }

/-- R132, R237: when the open fails, the cycle ends in Failed with (TransportOpenFailed, 0), DEGRADED, one
close and DONE, and nothing has been sent. A tick before the answer has no effect (R132), and none in Idle
and Failed (R147). -/
def Obligations.OpenFailEndsCycle : Prop :=
  ∀ (s : State) (es : List EnvEvent),
    (s.st = .configuring → s.inbox = .tpOpenFail :: es → step s = .next { s with
      degraded := true, resultClass := .transportOpenFailed, resultCode := 0, st := .failed,
      busy := false, portlog := s.portlog ++ [.tpClose], evt := s.evt ||| 1,
      evlog := s.evlog ++ [(.done, none)], inbox := es }) ∧
    (s.st ∈ [SeqState.configuring, .idle, .failed] → s.inbox = .tick :: es →
      step s = .next { s with inbox := es })

/-- R134, R237: from entry into Sending, with no answer from the transport, the write fails at the
WRITE_TIMEOUT_TICKS-th tick and not before: until then only WTIMER moves. -/
def Obligations.WriteTimesOutAtItsTick : Prop :=
  ∀ (s : State) (n : Nat) (es : List EnvEvent), s.st = .sending → s.wtimer = 0 →
    s.inbox = List.replicate n .tick ++ es →
    (n < s.cfg.writeTimeoutTicks →
      runFor n s = .next { s with wtimer := BitVec.ofNat 32 n, inbox := es }) ∧
    (n = s.cfg.writeTimeoutTicks →
      runFor n s = .next { s with
        wtimer := BitVec.ofNat 32 n, degraded := true, resultClass := .transportWriteTimeout,
        resultCode := 0, st := .failed, busy := false, portlog := s.portlog ++ [.tpClose],
        evt := s.evt ||| 1, evlog := s.evlog ++ [(.done, none)], inbox := es })

/-- R135, R136, R197: when the write is complete, command 0x21 ends its cycle with (OK, 0) and no
acknowledgment, and every other command begins its acknowledgment wait with the whole budget. -/
def Obligations.TxWrittenEndsBaudOrAwaitsAck : Prop :=
  ∀ (s : State) (es : List EnvEvent), s.st = .sending → s.inbox = .txWritten :: es →
    (s.lcmd = 0x21 → step s = .next { s with
      resultClass := .ok, resultCode := 0, st := .idle, busy := false,
      portlog := s.portlog ++ [.tpClose], evt := s.evt ||| 1, evlog := s.evlog ++ [(.done, none)],
      inbox := es }) ∧
    (s.lcmd ≠ 0x21 → step s = .next { s with wtimer := 0, retry := 0, st := .awaitingAck, inbox := es })

/-- R139, R14: a chunk stored: byte number n of the response (n counted from RLEN) lands at ACK[n] for
n < 12 and at PBUF[n - 12] while that is below PBUF_CAP, and every other byte of both is as it was; a byte
that does not fit sets W_PBUF_OVF (these for a chunk that does not take RLEN past its 32 bits); RLEN
counts every byte and saturates; WTIMER restarts and nothing else (RETRY and PRETRY among it, R142)
changes. -/
def Obligations.ChunkStoredInOrder : Prop :=
  ∀ (s : State) (bs : List Byte),
    let t := s.store bs
    let n := s.rlen.toNat
    t.rlen.toNat = min (n + bs.length) (2 ^ 32 - 1) ∧
    { t with ack := s.ack, pbuf := s.pbuf, rlen := s.rlen, wPbufOvf := s.wPbufOvf } = { s with wtimer := 0 } ∧
    (n + bs.length < 2 ^ 32 →
    (∀ i, t.byteAt .ack i = if n ≤ i ∧ i < n + bs.length ∧ i < 12 then bs.getD (i - n) 0 else s.byteAt .ack i) ∧
    (∀ i, t.byteAt .pbuf i =
      if n ≤ i + 12 ∧ i + 12 < n + bs.length ∧ i < s.cfg.pbufCap then bs.getD (i + 12 - n) 0
      else s.byteAt .pbuf i) ∧
    t.wPbufOvf = (s.wPbufOvf || decide (bs ≠ [] ∧ s.cfg.pbufCap + 12 < n + bs.length)))

/-- R138, R139, R142: a chunk that leaves the acknowledgment short of twelve bytes is stored, restarts
the window and leaves the rest of the wait as it was. -/
def Obligations.ShortAckChunkKeepsWaiting : Prop :=
  ∀ (s : State) (b : Byte) (bs : List Byte) (es : List EnvEvent), s.st = .awaitingAck →
    s.rlen.toNat + (bs.length + 1) < 12 → s.inbox = .rxChunk b bs :: es →
    ∃ t, step s = .next t ∧
      (∀ i, t.byteAt .ack i =
        if s.rlen.toNat ≤ i ∧ i < s.rlen.toNat + (bs.length + 1) then (b :: bs).getD (i - s.rlen.toNat) 0
        else s.byteAt .ack i) ∧
      t.rlen.toNat = s.rlen.toNat + (bs.length + 1) ∧
      { t with ack := s.ack, rlen := s.rlen } = { s with wtimer := 0, inbox := es }

/-- R138, R195 to R198, R110, R115: the chunk that completes the acknowledgment ends the wait in the same
step: a non-zero error code ends the cycle in Idle with (DeviceError, code), the DEVERR event and EVT_CODE;
otherwise a complete payload ends it in Idle with (OK, 0); otherwise the payload wait begins. -/
def Obligations.AckCompleteDecidesCycle : Prop :=
  ∀ (s : State) (b : Byte) (bs : List Byte) (es : List EnvEvent), s.st = .awaitingAck →
    12 ≤ s.rlen.toNat + (bs.length + 1) → s.inbox = .rxChunk b bs :: es →
    ∃ t, step s = .next t ∧
      let d := (({ s with inbox := es } : State).store (b :: bs)).ackDecode s.lcmd
      (d.errcode ≠ 0 → t = { d with
        evt := (s.evt ||| 2) ||| 1, evtCode := d.errcode, resultClass := .deviceError,
        resultCode := d.errcode, st := .idle, busy := false,
        evlog := s.evlog ++ [(.deverr, some d.errcode), (.done, none)],
        portlog := s.portlog ++ [.evtDeverr d.errcode, .tpClose] }) ∧
      (d.errcode = 0 → d.declen.toNat ≤ d.rlen.toNat - 12 → t = { d with
        evt := s.evt ||| 1, resultClass := .ok, resultCode := 0, st := .idle, busy := false,
        evlog := s.evlog ++ [(.done, none)], portlog := s.portlog ++ [.tpClose] }) ∧
      (d.errcode = 0 → d.rlen.toNat - 12 < d.declen.toNat → t = { d with
        pretry := 0, wtimer := 0, st := .awaitingPayload })

/-- R143, R120, R197: a payload chunk is stored whole, surplus included; the cycle ends in Idle with
(OK, 0) exactly when at least DECLEN payload bytes have arrived. -/
def Obligations.PayloadChunkEndsOrWaits : Prop :=
  ∀ (s : State) (b : Byte) (bs : List Byte) (es : List EnvEvent), s.st = .awaitingPayload →
    s.inbox = .rxChunk b bs :: es →
    ∃ t, step s = .next t ∧
      let d := ({ s with inbox := es } : State).store (b :: bs)
      let received := min (s.rlen.toNat + (bs.length + 1)) (2 ^ 32 - 1)
      t.rlen.toNat = received ∧
      (s.declen.toNat ≤ received - 12 → t = { d with
        evt := s.evt ||| 1, resultClass := .ok, resultCode := 0, st := .idle, busy := false,
        evlog := s.evlog ++ [(.done, none)], portlog := s.portlog ++ [.tpClose] }) ∧
      (received - 12 < s.declen.toNat → t = d)

/-- R140 to R142, R237: from entry into AwaitingAck, with no byte received, the cycle fails with
ProtocolTimeout at the (5 × RX_WINDOW_TICKS)-th tick, RETRY = 5, with the TIMEOUT event, and not before:
until then RETRY counts the windows that have ended and only RETRY and WTIMER move. It holds for every value
of the parameter, which is at most 2^32 - 1 in the model (log 5). -/
def Obligations.AckTimeoutAfterFiveWindows : Prop :=
  ∀ (s : State) (n : Nat) (es : List EnvEvent), s.st = .awaitingAck → s.wtimer = 0 → s.retry = 0 →
    s.inbox = List.replicate n .tick ++ es →
    (n < 5 * s.cfg.rxWindowTicks →
      runFor n s = .next { s with
        wtimer := BitVec.ofNat 32 (n % s.cfg.rxWindowTicks),
        retry := BitVec.ofNat 3 (n / s.cfg.rxWindowTicks), inbox := es }) ∧
    (n = 5 * s.cfg.rxWindowTicks →
      runFor n s = .next { s with
        wtimer := 0, retry := 5, resultClass := .protocolTimeout, resultCode := 0, st := .failed,
        busy := false, portlog := s.portlog ++ [.evtTimeout, .tpClose], evt := (s.evt ||| 4) ||| 1,
        evlog := s.evlog ++ [(.timeout, some 0), (.done, none)], inbox := es })

/-- R144, R145, R272: with PAYLOAD_RETRY_LIMIT = 0 the payload wait has no bound: any number of ticks
changes WTIMER alone. -/
def Obligations.PayloadWaitHasNoDeadline : Prop :=
  ∀ (s : State) (n : Nat) (es : List EnvEvent), s.st = .awaitingPayload → s.wtimer = 0 →
    s.payloadRetryLimit = 0 → s.inbox = List.replicate n .tick ++ es →
    runFor n s = .next { s with
      wtimer := BitVec.ofNat 32 (n % s.cfg.rxWindowTicks), inbox := es }

/-- R144, R145, R237: with a limit n > 0 and no byte received, the payload wait fails with PayloadTimeout
at the (n × RX_WINDOW_TICKS)-th tick after entry, with the TIMEOUT event, and not before. -/
def Obligations.PayloadTimeoutAfterLimit : Prop :=
  ∀ (s : State) (n : Nat) (es : List EnvEvent), s.st = .awaitingPayload → s.wtimer = 0 → s.pretry = 0 →
    s.payloadRetryLimit ≠ 0 → s.inbox = List.replicate n .tick ++ es →
    (n < s.payloadRetryLimit.toNat * s.cfg.rxWindowTicks →
      runFor n s = .next { s with
        wtimer := BitVec.ofNat 32 (n % s.cfg.rxWindowTicks),
        pretry := BitVec.ofNat 16 (n / s.cfg.rxWindowTicks), inbox := es }) ∧
    (n = s.payloadRetryLimit.toNat * s.cfg.rxWindowTicks →
      runFor n s = .next { s with
        wtimer := 0, pretry := s.payloadRetryLimit, resultClass := .payloadTimeout, resultCode := 0,
        st := .failed, busy := false, portlog := s.portlog ++ [.evtTimeout, .tpClose],
        evt := (s.evt ||| 4) ||| 1, evlog := s.evlog ++ [(.timeout, some 0), (.done, none)],
        inbox := es })

/-- R146, R196, R198, R237, R242: every step that ends a cycle, but Reset, closes the transport exactly once, reports
DONE last, and reports a device error and a timeout in both channels: RESULT and an event of the same
step, with the same code. -/
def Obligations.CycleEndReportedTwice : Prop :=
  ∀ (s t : State) (e : EnvEvent) (es : List EnvEvent), s.inbox = e :: es → e ≠ .reset → step s = .next t →
    s.busy = true → t.busy = false → ∃ evs : List (EvKind × Option Byte),
      t.evlog = s.evlog ++ evs ++ [(.done, none)] ∧
      (∃ ps, t.portlog = s.portlog ++ ps ++ [.tpClose] ∧ .tpClose ∉ ps) ∧
      (t.st = .idle ∨ t.st = .failed) ∧
      (t.resultClass = .deviceError ∧ evs = [(.deverr, some t.resultCode)] ∧ t.evtCode = t.resultCode ∧
          t.resultCode ≠ 0 ∧ t.st = .idle ∨
        (t.resultClass = .protocolTimeout ∨ t.resultClass = .payloadTimeout) ∧
          evs = [(.timeout, some 0)] ∧ t.resultCode = 0 ∧ t.st = .failed ∨
        (t.resultClass = .transportOpenFailed ∨ t.resultClass = .transportWriteTimeout) ∧ evs = [] ∧
          t.resultCode = 0 ∧ t.degraded = true ∧ t.st = .failed ∨
        t.resultClass = .ok ∧ evs = [] ∧ t.resultCode = 0 ∧ t.st = .idle)

/-! ### Whole cycles -/

/-- R136, R205: a BAUD cycle, from its issue to its end: open, twelve bytes, close, (OK, 0); no
acknowledgment is awaited and RLEN stays 0. (Issue as one event: log 1.) -/
def Obligations.BaudCycleIsNotAcknowledged : Prop :=
  ∀ (s : State) (a : FrameArgs) (f : Vector Byte 12) (es : List EnvEvent), s.busy = false →
    f.toList = encode (.baud a) → s.inbox = [.hostCommand f, .tpOpenOk, .txWritten] ++ es →
    ∃ t, runFor 3 s = .next t ∧ t.st = .idle ∧ t.busy = false ∧ t.resultClass = .ok ∧
      t.resultCode = 0 ∧ t.rlen = 0 ∧ t.errcode = 0 ∧ t.param1 = 0 ∧ t.param2 = 0 ∧ t.declen = 0 ∧
      t.txlog = s.txlog ++ encode (.baud a) ∧
      t.evlog = s.evlog ++ [(.done, none)] ∧ t.ack = s.ack ∧ t.pbuf = s.pbuf ∧ t.inbox = es

/-- R206 to R211, R204: a cycle of a command without payload whose acknowledgment comes as one chunk
of twelve bytes: it ends Idle, with (OK, 0) where byte 2 is zero and (DeviceError, byte 2) where it is
not, and the twelve bytes stand in ACK. (Issue as one event: log 1.) -/
def Obligations.AckOnlyCycleReturnsErrorCode : Prop :=
  ∀ (s : State) (a : FrameArgs) (i : Instr) (f : Vector Byte 12) (b : Byte) (bs : List Byte)
    (es : List EnvEvent),
    i ∈ [Instr.status a, .enrollStart a, .enrollFinish a, .delete a, .verify a, .identify a] →
    s.busy = false → f.toList = encode i → bs.length = 11 →
    s.inbox = [.hostCommand f, .tpOpenOk, .txWritten, .rxChunk b bs] ++ es →
    ∃ t, runFor 4 s = .next t ∧ t.st = .idle ∧ t.busy = false ∧
      t.bytesFrom .ack 0 12 = b :: bs ∧ t.rlen = 12 ∧ t.errcode = bs.getD 1 0 ∧ t.declen = 0 ∧
      t.resultClass = (if bs.getD 1 0 = 0 then .ok else .deviceError) ∧ t.resultCode = bs.getD 1 0 ∧
      t.param2.toNat = (pairval ((b :: bs).getD s.cfg.ackP2Lo 0) ((b :: bs).getD s.cfg.ackP2Hi 0)).1 ∧
      t.txlog = s.txlog ++ encode i ∧ t.inbox = es

/-- R214, R268, R116: the template fetch takes what came in the chunk that completed the acknowledgment:
of an acknowledgment and `p` in one chunk, PBUF receives `p` and DECLEN is its length. (Issue as one event: log 1.) -/
def Obligations.GetTemplateTakesWhatArrived : Prop :=
  ∀ (s : State) (a : FrameArgs) (f : Vector Byte 12) (b : Byte) (bs p : List Byte) (es : List EnvEvent),
    s.busy = false → f.toList = encode (.getTemplate a) → bs.length = 11 → bs.getD 1 0 = 0 →
    p.length ≤ s.cfg.pbufCap → p.length + 12 < 2 ^ 32 →
    s.inbox = [.hostCommand f, .tpOpenOk, .txWritten, .rxChunk b (bs ++ p)] ++ es →
    ∃ t, runFor 4 s = .next t ∧ t.st = .idle ∧ t.resultClass = .ok ∧ t.resultCode = 0 ∧
      t.rlen.toNat = 12 + p.length ∧ t.declen.toNat = p.length ∧ t.plen = p.length ∧
      t.bytesFrom .pbuf 0 p.length = p ∧ t.inbox = es

/-! ### Host accesses -/

/-- R5, R11, R12, R15, R19, R25, R26: the step on a host write of any register but CTRL is that write.
While BUSY = 0 a write of a host-writable register is read back with the low bits the register holds, every
other register and every buffer byte reads as before, and nothing but the writable registers changes. -/
def Obligations.HostWriteKeepsLowBits : Prop :=
  (∀ (s : State) (n : Nat) (v : BusWord) (es : List EnvEvent), n ≠ 0 → s.inbox = .hostWrite n v :: es →
    step s = .next (({ s with inbox := es } : State).hostWrite n v)) ∧
  ∀ (s : State) (n w : Nat) (v : BusWord), s.busy = false →
    (n, w) ∈ [(0x04, 4), (0x06, 8), (0x07, 32), (0x08, 8), (0x09, 8), (0x0A, 8), (0x0B, 8), (0x0C, 8),
      (0x0D, 8), (0x0E, 8), (0x0F, 8), (0x10, 8), (0x11, 16), (0x12, 1), (0x13, 16), (0x14, 16),
      (0x15, 32), (0x16, 16), (0x17, 16), (0x1C, 32)] →
    ((s.hostWrite n v).readReg n).toNat = v.toNat % 2 ^ w ∧
    (∀ m, m ≠ n → (s.hostWrite n v).readReg m = s.readReg m) ∧
    (∀ b i, (s.hostWrite n v).byteAt b i = s.byteAt b i) ∧
    { s.hostWrite n v with
      evtEn := s.evtEn, channel := s.channel, baud := s.baud, x := s.x, idIn := s.idIn, fmt := s.fmt
      hlen := s.hlen, entryCount := s.entryCount, expectLen := s.expectLen, txlen := s.txlen
      payloadRetryLimit := s.payloadRetryLimit, rlen := s.rlen } = s

/-- R25, R26: while BUSY = 1 a host write of any register number but STATUS, EVT and EVT_EN changes nothing
but W_BUSYVIOL, and so does the step on a CTRL write with START or without; numbers 0x25 and above do not
exist: they read 0, and while BUSY = 0 a write to them changes nothing. For read-only registers and a CTRL
write without START the flag is the model's reading (log 6, 8), and for missing numbers too (log 7). -/
def Obligations.HostWriteIgnoredWhileBusy : Prop :=
  ∀ (s : State) (n : Nat) (v : BusWord),
    (s.busy = true → n ≠ 0x01 → n ≠ 0x03 → n ≠ 0x04 → s.hostWrite n v = { s with wBusyViol := true }) ∧
    (∀ es, s.busy = true → s.inbox = .hostWrite 0 v :: es →
      step s = .next { s with wBusyViol := true, inbox := es }) ∧
    (0x25 ≤ n → (s.busy = false → s.hostWrite n v = s) ∧ s.readReg n = 0)

/-- R14, R17 to R19, R25, R230, R240: where the fields of STATUS and RESULT stand when the host reads them.
Writing STATUS or EVT clears exactly the sticky bits written as 1, in any state, BUSY or not, and changes
nothing else; the other bits of STATUS are read-only; writing EVT_EN sets it to the low 4 bits, in any
state, and changes nothing else. `irq` is 1 exactly when a pending event is enabled. That these writes
set no W_BUSYVIOL while BUSY = 1, whatever the other bits of the value hold, is the model's reading of R25
(log 8). -/
def Obligations.StickyBitsClearWhenWrittenOne : Prop :=
  ∀ (s : State) (v : BusWord) (k : Nat),
    ((s.hostWrite 0x01 v).readReg 0x01).getLsbD k
      = ((s.readReg 0x01).getLsbD k && !(decide (8 ≤ k ∧ k ≤ 12) && v.getLsbD k)) ∧
    ((s.hostWrite 0x03 v).readReg 0x03).getLsbD k = ((s.readReg 0x03).getLsbD k && !v.getLsbD k) ∧
    (∀ n, n ≠ 0x01 → (s.hostWrite 0x01 v).readReg n = s.readReg n) ∧
    (∀ n, n ≠ 0x03 → (s.hostWrite 0x03 v).readReg n = s.readReg n) ∧
    { s.hostWrite 0x01 v with
      wBusyViol := s.wBusyViol, wBadDigit := s.wBadDigit, wTplClip := s.wTplClip, wTplOor := s.wTplOor
      wPbufOvf := s.wPbufOvf } = s ∧
    { s.hostWrite 0x03 v with evt := s.evt } = s ∧
    s.hostWrite 0x04 v = { s with evtEn := BitVec.ofNat 4 v.toNat } ∧
    (s.irq = true ↔ ∃ j, (s.readReg 0x03).getLsbD j = true ∧ (s.readReg 0x04).getLsbD j = true) ∧
    (s.readReg 0x01).toNat = s.busy.toNat
      + 2 * (match s.st with
        | .idle => 0 | .configuring => 1 | .sending => 2 | .awaitingAck => 3 | .awaitingPayload => 4
        | .failed => 5)
      + 16 * s.degraded.toNat + 32 * s.p1Valid.toNat + 64 * s.p2Valid.toNat + 256 * s.wBusyViol.toNat
      + 512 * s.wBadDigit.toNat + 1024 * s.wTplClip.toNat + 2048 * s.wTplOor.toNat
      + 4096 * s.wPbufOvf.toNat ∧
    (s.readReg 0x02).toNat = 256 * s.resultCode.toNat
      + (match s.resultClass with
        | .ok => 0 | .transportOpenFailed => 1 | .transportWriteTimeout => 2 | .protocolTimeout => 3
        | .deviceError => 4 | .payloadTimeout => 5 | .illegalRequest => 6)

/-- R23, R25, R26, R54: the step on a host buffer write is that write. It reaches exactly one element, of a
host-writable space, in range, while BUSY = 0; out of range it then does nothing; while BUSY = 1 it only
sets W_BUSYVIOL, whatever it addresses. A host read returns the element (for space 6 the bit of DIRMAP), 0
out of range, and changes no state of FPC. That a write to TXF, IBUF or DIRMAP does nothing while idle, that
a write out of range is flagged while busy, that space numbers from 7 behave as missing, and that reads are
events, are the model's reading (log 7, 8, 11). -/
def Obligations.HostBufferAccess : Prop :=
  ∀ (s : State) (b : Buf) (i : Nat) (v : Byte),
    (i < b.size s.cfg → s.busy = false → b ∈ [Buf.ack, .pbuf, .hbuf, .tbuf] →
      (∀ c k, (s.hostBufWrite b.space i v).byteAt c k = if c = b ∧ k = i then v else s.byteAt c k) ∧
      (s.hostBufWrite b.space i v).setBuf b (s.bufOf b) = s) ∧
    (i < b.size s.cfg → s.busy = false → b ∈ [Buf.txf, .ibuf] → s.hostBufWrite b.space i v = s) ∧
    (b.size s.cfg ≤ i → (s.busy = false → s.hostBufWrite b.space i v = s) ∧ s.readBuf b.space i = 0) ∧
    (i < b.size s.cfg → s.readBuf b.space i = (s.byteAt b i).setWidth 32) ∧
    (i < 10000 → s.readBuf 6 i = if s.dirBit i then 1 else 0) ∧
    (10000 ≤ i → s.readBuf 6 i = 0) ∧
    (∀ space, 6 ≤ space → s.busy = false → s.hostBufWrite space i v = s) ∧
    (∀ space, 7 ≤ space → s.readBuf space i = 0) ∧
    (∀ space, s.busy = true → s.hostBufWrite space i v = { s with wBusyViol := true }) ∧
    ∀ es n space, (s.inbox = .hostBufWrite space n v :: es →
        step s = .next (({ s with inbox := es } : State).hostBufWrite space n v)) ∧
      (s.inbox = .hostRead n :: es →
        step s = .next { s with inbox := es, portlog := s.portlog ++ [.readData (s.readReg n)] }) ∧
      (s.inbox = .hostBufRead space n :: es →
        step s = .next { s with inbox := es, portlog := s.portlog ++ [.readData (s.readBuf space n)] })

/-! ### Asynchronous events and reset -/

/-- R243, R59, R240: in any state a presence edge sets EVT.PRESENCE, is logged and pulses its port when
HAS_PRESENCE, and does nothing otherwise; no other state is touched. -/
def Obligations.PresenceEdgeOnlyNotifies : Prop :=
  ∀ (s : State) (es : List EnvEvent), s.inbox = .presenceEdge :: es →
    (s.cfg.hasPresence = true → step s = .next { s with
      inbox := es, evt := s.evt ||| 8, evlog := s.evlog ++ [(.presence, none)],
      portlog := s.portlog ++ [.evtPresence] }) ∧
    (s.cfg.hasPresence = false → step s = .next { s with inbox := es })

/-- R260, R30, R261, R146: Reset, in any state, gives every piece of state its reset value; the static
parameters stand; one close is pulsed exactly where a cycle was in flight; no event is logged. -/
def Obligations.ResetRestoresTable : Prop :=
  ∀ (s : State) (es : List EnvEvent), s.inbox = .reset :: es → ∃ t, step s = .next t ∧
    t.cfg = s.cfg ∧
    t.portlog = s.portlog ++ (if s.st ∈ [SeqState.configuring, .sending, .awaitingAck, .awaitingPayload]
      then [.tpClose] else []) ∧
    t.inbox = es ∧
    t.st = .idle ∧ t.busy = false ∧ t.x = Vector.replicate 9 0 ∧ t.channel = 0x00 ∧ t.baud = 0 ∧
    (∀ n, t.readReg n = 0) ∧ t.txlog = [] ∧ t.evlog = [] ∧ (∀ b, t.bufOf b = []) ∧ t.dirmap = none

/-- R236: events that arrive in one clock cycle are taken in this order: Reset, TpOpenFail, TpOpenOk,
TxWritten, RxChunk, Tick, PresenceEdge, host accesses (these as they came); nothing is lost or added. The
queue is the model's own (log 14). -/
def Obligations.SimultaneousEventsTakenByRank : Prop :=
  (∀ es : List EnvEvent, (arbitrate es).Perm es ∧
    (arbitrate es).Pairwise (fun e f => e.rank ≤ f.rank)) ∧
  (∀ (s : State) (b c : Byte) (bs : List Byte) (n space i : Nat) (v : BusWord) (f : Vector Byte 12),
    s.inbox = [] →
    let host : List EnvEvent :=
      [.hostWrite n v, .hostBufWrite space i c, .hostRead n, .hostBufRead space i, .hostCommand f]
    let others : List EnvEvent :=
      [.presenceEdge, .tick, .rxChunk b bs, .txWritten, .tpOpenOk, .tpOpenFail, .reset]
    (s.deliver (host ++ others)).inbox = others.reverse ++ host ∧
    (s.deliver (host.reverse ++ others)).inbox = others.reverse ++ host.reverse ∧
    (s.deliver [.tick, .rxChunk b bs]).inbox = [.rxChunk b bs, .tick] ∧
    (s.deliver [.tick, .txWritten]).inbox = [.txWritten, .tick] ∧
    (s.deliver [.hostRead 0, .presenceEdge, .tpOpenOk, .tpOpenFail, .reset]).inbox
      = [.reset, .tpOpenFail, .tpOpenOk, .presenceEdge, .hostRead 0])

/-! ### Whole-machine rules -/

/-- R11, R12, R15, R19: FPC never writes the operand registers, CHANNEL or EVT_EN: a step that is neither
a host write, nor an issued command, nor Reset leaves them as they are (TXLEN, which ENCTPL writes, and
RLEN, which a cycle writes, are not among them); and no host operation changes them either. -/
def Obligations.FpcNeverWritesOperands : Prop :=
  ∀ s t : State,
    ((∃ e es, s.inbox = e :: es ∧ e.word = none ∧ (∀ n v, e ≠ .hostWrite n v) ∧ e ≠ .reset ∧
        step s = .next t) ∨
      ∃ i ∈ [Instr.build, .run, .id2b, .decack, .enctpl, .decdir, .nextfree, .flipimg],
        exec i s = .next t) →
    t.x = s.x ∧ t.channel = s.channel ∧ t.baud = s.baud ∧ t.idIn = s.idIn ∧ t.fmt = s.fmt ∧
    t.hlen = s.hlen ∧ t.entryCount = s.entryCount ∧ t.expectLen = s.expectLen ∧
    t.payloadRetryLimit = s.payloadRetryLimit ∧ t.evtEn = s.evtEn

/-- R24, R133, R240, R261: the static parameters never change; but for Reset, TXLOG, EVLOG and the port
log only grow, and TXLOG grows in the step that takes TpOpenOk alone. -/
def Obligations.LogsOnlyGrow : Prop :=
  ∀ (s t : State) (e : EnvEvent) (es : List EnvEvent), s.inbox = e :: es → step s = .next t →
    t.cfg = s.cfg ∧ s.portlog <+: t.portlog ∧
    (e ≠ .reset → s.txlog <+: t.txlog ∧ s.evlog <+: t.evlog) ∧
    (e ≠ .reset → e ≠ .tpOpenOk → t.txlog = s.txlog)

/-- R232, R233 (and D10): FPC's behaviour does not depend on ERRKIND: two machines that differ in it
alone step alike. -/
def Obligations.ErrKindNeverMatters : Prop :=
  ∀ (s : State) (m : ErrKindMap),
    let swap := fun u : State => { u with cfg := { u.cfg with errKind := m } }
    match step s with
    | .next t => step (swap s) = .next (swap t)
    | .fault f => step (swap s) = .fault f
    | .refused r => step (swap s) = .refused r

/-! ### Invariants -/

/-- R30: every invariant below holds of the state after reset. -/
def Obligations.ResetIsLegal : Prop :=
  State.reset.BuffersLegal ∧ State.reset.ValuesInRange ∧ State.reset.SequencerLegal ∧
  State.reset.FrameLegal ∧ State.reset.EventsLegal ∧ State.reset.PortsBracketed

/-- R53, R174, R177: every step keeps the buffers canonical and inside their sizes and the directory
increasing, in range and counted. -/
def Obligations.StepKeepsBuffersLegal : Prop :=
  ∀ s t : State, s.BuffersLegal → step s = .next t → t.BuffersLegal

/-- R20 to R22, R251: every step keeps the result registers and RETRY in their ranges. -/
def Obligations.StepKeepsValuesInRange : Prop :=
  ∀ s t : State, s.SequencerLegal → s.ValuesInRange → step s = .next t → t.ValuesInRange

/-- R190 to R195, R131 to R145: every step keeps the sequencer legal: BUSY agrees with ST, every counter
is short of its limit, and each state of a cycle holds what the rules leave in it. -/
def Obligations.StepKeepsSequencerLegal : Prop :=
  ∀ s t : State, s.SequencerLegal → step s = .next t → t.SequencerLegal

/-- R102, R190: every step keeps TXF empty or lawful, and while a cycle is in flight TXF holds the frame
of its command. -/
def Obligations.StepKeepsFrameLegal : Prop :=
  ∀ s t : State, s.FrameLegal → step s = .next t → t.FrameLegal

/-- R240, R241, R196: every step keeps each pending event bit backed by a logged event and each logged
DEVERR carrying a non-zero code. -/
def Obligations.StepKeepsEventsLegal : Prop :=
  ∀ s t : State, s.EventsLegal → step s = .next t → t.EventsLegal

/-- R130, R146, R279: every step keeps the port discipline: the transport is opened and closed in turn,
bytes go out only while it is open, and it is open exactly while a cycle is in flight. -/
def Obligations.StepKeepsPortsBracketed : Prop :=
  ∀ s t : State, s.SequencerLegal → s.PortsBracketed → step s = .next t → t.PortsBracketed

end
end

