-- ==== Sys2Proof/Laws/State.lean ====
section
/-! SUPPORT. One lemma for each field of the state and each named update: what the field holds after
it. -/

namespace Sys2Proof.Machine

variable (s : State)

/-! ### pulse -/

@[simp] theorem State.pulse_x (p : Pulse) : (s.pulse p).x = s.x := rfl
@[simp] theorem State.pulse_channel (p : Pulse) : (s.pulse p).channel = s.channel := rfl
@[simp] theorem State.pulse_baud (p : Pulse) : (s.pulse p).baud = s.baud := rfl
@[simp] theorem State.pulse_idIn (p : Pulse) : (s.pulse p).idIn = s.idIn := rfl
@[simp] theorem State.pulse_fmt (p : Pulse) : (s.pulse p).fmt = s.fmt := rfl
@[simp] theorem State.pulse_hlen (p : Pulse) : (s.pulse p).hlen = s.hlen := rfl
@[simp] theorem State.pulse_entryCount (p : Pulse) : (s.pulse p).entryCount = s.entryCount := rfl
@[simp] theorem State.pulse_expectLen (p : Pulse) : (s.pulse p).expectLen = s.expectLen := rfl
@[simp] theorem State.pulse_txlen (p : Pulse) : (s.pulse p).txlen = s.txlen := rfl
@[simp] theorem State.pulse_rlen (p : Pulse) : (s.pulse p).rlen = s.rlen := rfl
@[simp] theorem State.pulse_payloadRetryLimit (p : Pulse) : (s.pulse p).payloadRetryLimit = s.payloadRetryLimit := rfl
@[simp] theorem State.pulse_st (p : Pulse) : (s.pulse p).st = s.st := rfl
@[simp] theorem State.pulse_busy (p : Pulse) : (s.pulse p).busy = s.busy := rfl
@[simp] theorem State.pulse_degraded (p : Pulse) : (s.pulse p).degraded = s.degraded := rfl
@[simp] theorem State.pulse_p1Valid (p : Pulse) : (s.pulse p).p1Valid = s.p1Valid := rfl
@[simp] theorem State.pulse_p2Valid (p : Pulse) : (s.pulse p).p2Valid = s.p2Valid := rfl
@[simp] theorem State.pulse_wBusyViol (p : Pulse) : (s.pulse p).wBusyViol = s.wBusyViol := rfl
@[simp] theorem State.pulse_wBadDigit (p : Pulse) : (s.pulse p).wBadDigit = s.wBadDigit := rfl
@[simp] theorem State.pulse_wTplClip (p : Pulse) : (s.pulse p).wTplClip = s.wTplClip := rfl
@[simp] theorem State.pulse_wTplOor (p : Pulse) : (s.pulse p).wTplOor = s.wTplOor := rfl
@[simp] theorem State.pulse_wPbufOvf (p : Pulse) : (s.pulse p).wPbufOvf = s.wPbufOvf := rfl
@[simp] theorem State.pulse_resultClass (p : Pulse) : (s.pulse p).resultClass = s.resultClass := rfl
@[simp] theorem State.pulse_resultCode (p : Pulse) : (s.pulse p).resultCode = s.resultCode := rfl
@[simp] theorem State.pulse_evt (p : Pulse) : (s.pulse p).evt = s.evt := rfl
@[simp] theorem State.pulse_evtEn (p : Pulse) : (s.pulse p).evtEn = s.evtEn := rfl
@[simp] theorem State.pulse_evtCode (p : Pulse) : (s.pulse p).evtCode = s.evtCode := rfl
@[simp] theorem State.pulse_errcode (p : Pulse) : (s.pulse p).errcode = s.errcode := rfl
@[simp] theorem State.pulse_param1 (p : Pulse) : (s.pulse p).param1 = s.param1 := rfl
@[simp] theorem State.pulse_param2 (p : Pulse) : (s.pulse p).param2 = s.param2 := rfl
@[simp] theorem State.pulse_declen (p : Pulse) : (s.pulse p).declen = s.declen := rfl
@[simp] theorem State.pulse_lcmd (p : Pulse) : (s.pulse p).lcmd = s.lcmd := rfl
@[simp] theorem State.pulse_wtimer (p : Pulse) : (s.pulse p).wtimer = s.wtimer := rfl
@[simp] theorem State.pulse_retry (p : Pulse) : (s.pulse p).retry = s.retry := rfl
@[simp] theorem State.pulse_pretry (p : Pulse) : (s.pulse p).pretry = s.pretry := rfl
@[simp] theorem State.pulse_idLo (p : Pulse) : (s.pulse p).idLo = s.idLo := rfl
@[simp] theorem State.pulse_idHi (p : Pulse) : (s.pulse p).idHi = s.idHi := rfl
@[simp] theorem State.pulse_nextFree (p : Pulse) : (s.pulse p).nextFree = s.nextFree := rfl
@[simp] theorem State.pulse_dirCount (p : Pulse) : (s.pulse p).dirCount = s.dirCount := rfl
@[simp] theorem State.pulse_txf (p : Pulse) : (s.pulse p).txf = s.txf := rfl
@[simp] theorem State.pulse_ack (p : Pulse) : (s.pulse p).ack = s.ack := rfl
@[simp] theorem State.pulse_pbuf (p : Pulse) : (s.pulse p).pbuf = s.pbuf := rfl
@[simp] theorem State.pulse_hbuf (p : Pulse) : (s.pulse p).hbuf = s.hbuf := rfl
@[simp] theorem State.pulse_tbuf (p : Pulse) : (s.pulse p).tbuf = s.tbuf := rfl
@[simp] theorem State.pulse_ibuf (p : Pulse) : (s.pulse p).ibuf = s.ibuf := rfl
@[simp] theorem State.pulse_dirmap (p : Pulse) : (s.pulse p).dirmap = s.dirmap := rfl
@[simp] theorem State.pulse_txlog (p : Pulse) : (s.pulse p).txlog = s.txlog := rfl
@[simp] theorem State.pulse_evlog (p : Pulse) : (s.pulse p).evlog = s.evlog := rfl
@[simp] theorem State.pulse_cfg (p : Pulse) : (s.pulse p).cfg = s.cfg := rfl
@[simp] theorem State.pulse_portlog (p : Pulse) : (s.pulse p).portlog = s.portlog ++ [p] := rfl
@[simp] theorem State.pulse_epoch (p : Pulse) : (s.pulse p).epoch = s.epoch := rfl
@[simp] theorem State.pulse_inbox (p : Pulse) : (s.pulse p).inbox = s.inbox := rfl

/-! ### transmit -/

@[simp] theorem State.transmit_x (bs : List Byte) : (s.transmit bs).x = s.x := rfl
@[simp] theorem State.transmit_channel (bs : List Byte) : (s.transmit bs).channel = s.channel := rfl
@[simp] theorem State.transmit_baud (bs : List Byte) : (s.transmit bs).baud = s.baud := rfl
@[simp] theorem State.transmit_idIn (bs : List Byte) : (s.transmit bs).idIn = s.idIn := rfl
@[simp] theorem State.transmit_fmt (bs : List Byte) : (s.transmit bs).fmt = s.fmt := rfl
@[simp] theorem State.transmit_hlen (bs : List Byte) : (s.transmit bs).hlen = s.hlen := rfl
@[simp] theorem State.transmit_entryCount (bs : List Byte) : (s.transmit bs).entryCount = s.entryCount := rfl
@[simp] theorem State.transmit_expectLen (bs : List Byte) : (s.transmit bs).expectLen = s.expectLen := rfl
@[simp] theorem State.transmit_txlen (bs : List Byte) : (s.transmit bs).txlen = s.txlen := rfl
@[simp] theorem State.transmit_rlen (bs : List Byte) : (s.transmit bs).rlen = s.rlen := rfl
@[simp] theorem State.transmit_payloadRetryLimit (bs : List Byte) : (s.transmit bs).payloadRetryLimit = s.payloadRetryLimit := rfl
@[simp] theorem State.transmit_st (bs : List Byte) : (s.transmit bs).st = s.st := rfl
@[simp] theorem State.transmit_busy (bs : List Byte) : (s.transmit bs).busy = s.busy := rfl
@[simp] theorem State.transmit_degraded (bs : List Byte) : (s.transmit bs).degraded = s.degraded := rfl
@[simp] theorem State.transmit_p1Valid (bs : List Byte) : (s.transmit bs).p1Valid = s.p1Valid := rfl
@[simp] theorem State.transmit_p2Valid (bs : List Byte) : (s.transmit bs).p2Valid = s.p2Valid := rfl
@[simp] theorem State.transmit_wBusyViol (bs : List Byte) : (s.transmit bs).wBusyViol = s.wBusyViol := rfl
@[simp] theorem State.transmit_wBadDigit (bs : List Byte) : (s.transmit bs).wBadDigit = s.wBadDigit := rfl
@[simp] theorem State.transmit_wTplClip (bs : List Byte) : (s.transmit bs).wTplClip = s.wTplClip := rfl
@[simp] theorem State.transmit_wTplOor (bs : List Byte) : (s.transmit bs).wTplOor = s.wTplOor := rfl
@[simp] theorem State.transmit_wPbufOvf (bs : List Byte) : (s.transmit bs).wPbufOvf = s.wPbufOvf := rfl
@[simp] theorem State.transmit_resultClass (bs : List Byte) : (s.transmit bs).resultClass = s.resultClass := rfl
@[simp] theorem State.transmit_resultCode (bs : List Byte) : (s.transmit bs).resultCode = s.resultCode := rfl
@[simp] theorem State.transmit_evt (bs : List Byte) : (s.transmit bs).evt = s.evt := rfl
@[simp] theorem State.transmit_evtEn (bs : List Byte) : (s.transmit bs).evtEn = s.evtEn := rfl
@[simp] theorem State.transmit_evtCode (bs : List Byte) : (s.transmit bs).evtCode = s.evtCode := rfl
@[simp] theorem State.transmit_errcode (bs : List Byte) : (s.transmit bs).errcode = s.errcode := rfl
@[simp] theorem State.transmit_param1 (bs : List Byte) : (s.transmit bs).param1 = s.param1 := rfl
@[simp] theorem State.transmit_param2 (bs : List Byte) : (s.transmit bs).param2 = s.param2 := rfl
@[simp] theorem State.transmit_declen (bs : List Byte) : (s.transmit bs).declen = s.declen := rfl
@[simp] theorem State.transmit_lcmd (bs : List Byte) : (s.transmit bs).lcmd = s.lcmd := rfl
@[simp] theorem State.transmit_wtimer (bs : List Byte) : (s.transmit bs).wtimer = s.wtimer := rfl
@[simp] theorem State.transmit_retry (bs : List Byte) : (s.transmit bs).retry = s.retry := rfl
@[simp] theorem State.transmit_pretry (bs : List Byte) : (s.transmit bs).pretry = s.pretry := rfl
@[simp] theorem State.transmit_idLo (bs : List Byte) : (s.transmit bs).idLo = s.idLo := rfl
@[simp] theorem State.transmit_idHi (bs : List Byte) : (s.transmit bs).idHi = s.idHi := rfl
@[simp] theorem State.transmit_nextFree (bs : List Byte) : (s.transmit bs).nextFree = s.nextFree := rfl
@[simp] theorem State.transmit_dirCount (bs : List Byte) : (s.transmit bs).dirCount = s.dirCount := rfl
@[simp] theorem State.transmit_txf (bs : List Byte) : (s.transmit bs).txf = s.txf := rfl
@[simp] theorem State.transmit_ack (bs : List Byte) : (s.transmit bs).ack = s.ack := rfl
@[simp] theorem State.transmit_pbuf (bs : List Byte) : (s.transmit bs).pbuf = s.pbuf := rfl
@[simp] theorem State.transmit_hbuf (bs : List Byte) : (s.transmit bs).hbuf = s.hbuf := rfl
@[simp] theorem State.transmit_tbuf (bs : List Byte) : (s.transmit bs).tbuf = s.tbuf := rfl
@[simp] theorem State.transmit_ibuf (bs : List Byte) : (s.transmit bs).ibuf = s.ibuf := rfl
@[simp] theorem State.transmit_dirmap (bs : List Byte) : (s.transmit bs).dirmap = s.dirmap := rfl
@[simp] theorem State.transmit_txlog (bs : List Byte) : (s.transmit bs).txlog = s.txlog ++ bs := rfl
@[simp] theorem State.transmit_evlog (bs : List Byte) : (s.transmit bs).evlog = s.evlog := rfl
@[simp] theorem State.transmit_cfg (bs : List Byte) : (s.transmit bs).cfg = s.cfg := rfl
@[simp] theorem State.transmit_portlog (bs : List Byte) : (s.transmit bs).portlog = s.portlog ++ bs.map Pulse.txData := rfl
@[simp] theorem State.transmit_epoch (bs : List Byte) : (s.transmit bs).epoch = s.epoch := rfl
@[simp] theorem State.transmit_inbox (bs : List Byte) : (s.transmit bs).inbox = s.inbox := rfl

/-! ### emit -/

@[simp] theorem State.emit_x (k : EvKind) (c : Option Byte) : (s.emit k c).x = s.x := rfl
@[simp] theorem State.emit_channel (k : EvKind) (c : Option Byte) : (s.emit k c).channel = s.channel := rfl
@[simp] theorem State.emit_baud (k : EvKind) (c : Option Byte) : (s.emit k c).baud = s.baud := rfl
@[simp] theorem State.emit_idIn (k : EvKind) (c : Option Byte) : (s.emit k c).idIn = s.idIn := rfl
@[simp] theorem State.emit_fmt (k : EvKind) (c : Option Byte) : (s.emit k c).fmt = s.fmt := rfl
@[simp] theorem State.emit_hlen (k : EvKind) (c : Option Byte) : (s.emit k c).hlen = s.hlen := rfl
@[simp] theorem State.emit_entryCount (k : EvKind) (c : Option Byte) : (s.emit k c).entryCount = s.entryCount := rfl
@[simp] theorem State.emit_expectLen (k : EvKind) (c : Option Byte) : (s.emit k c).expectLen = s.expectLen := rfl
@[simp] theorem State.emit_txlen (k : EvKind) (c : Option Byte) : (s.emit k c).txlen = s.txlen := rfl
@[simp] theorem State.emit_rlen (k : EvKind) (c : Option Byte) : (s.emit k c).rlen = s.rlen := rfl
@[simp] theorem State.emit_payloadRetryLimit (k : EvKind) (c : Option Byte) : (s.emit k c).payloadRetryLimit = s.payloadRetryLimit := rfl
@[simp] theorem State.emit_st (k : EvKind) (c : Option Byte) : (s.emit k c).st = s.st := rfl
@[simp] theorem State.emit_busy (k : EvKind) (c : Option Byte) : (s.emit k c).busy = s.busy := rfl
@[simp] theorem State.emit_degraded (k : EvKind) (c : Option Byte) : (s.emit k c).degraded = s.degraded := rfl
@[simp] theorem State.emit_p1Valid (k : EvKind) (c : Option Byte) : (s.emit k c).p1Valid = s.p1Valid := rfl
@[simp] theorem State.emit_p2Valid (k : EvKind) (c : Option Byte) : (s.emit k c).p2Valid = s.p2Valid := rfl
@[simp] theorem State.emit_wBusyViol (k : EvKind) (c : Option Byte) : (s.emit k c).wBusyViol = s.wBusyViol := rfl
@[simp] theorem State.emit_wBadDigit (k : EvKind) (c : Option Byte) : (s.emit k c).wBadDigit = s.wBadDigit := rfl
@[simp] theorem State.emit_wTplClip (k : EvKind) (c : Option Byte) : (s.emit k c).wTplClip = s.wTplClip := rfl
@[simp] theorem State.emit_wTplOor (k : EvKind) (c : Option Byte) : (s.emit k c).wTplOor = s.wTplOor := rfl
@[simp] theorem State.emit_wPbufOvf (k : EvKind) (c : Option Byte) : (s.emit k c).wPbufOvf = s.wPbufOvf := rfl
@[simp] theorem State.emit_resultClass (k : EvKind) (c : Option Byte) : (s.emit k c).resultClass = s.resultClass := rfl
@[simp] theorem State.emit_resultCode (k : EvKind) (c : Option Byte) : (s.emit k c).resultCode = s.resultCode := rfl
@[simp] theorem State.emit_evt (k : EvKind) (c : Option Byte) : (s.emit k c).evt = s.evt ||| k.mask := rfl
@[simp] theorem State.emit_evtEn (k : EvKind) (c : Option Byte) : (s.emit k c).evtEn = s.evtEn := rfl
@[simp] theorem State.emit_evtCode (k : EvKind) (c : Option Byte) : (s.emit k c).evtCode = k.evtCode c s.evtCode := rfl
@[simp] theorem State.emit_errcode (k : EvKind) (c : Option Byte) : (s.emit k c).errcode = s.errcode := rfl
@[simp] theorem State.emit_param1 (k : EvKind) (c : Option Byte) : (s.emit k c).param1 = s.param1 := rfl
@[simp] theorem State.emit_param2 (k : EvKind) (c : Option Byte) : (s.emit k c).param2 = s.param2 := rfl
@[simp] theorem State.emit_declen (k : EvKind) (c : Option Byte) : (s.emit k c).declen = s.declen := rfl
@[simp] theorem State.emit_lcmd (k : EvKind) (c : Option Byte) : (s.emit k c).lcmd = s.lcmd := rfl
@[simp] theorem State.emit_wtimer (k : EvKind) (c : Option Byte) : (s.emit k c).wtimer = s.wtimer := rfl
@[simp] theorem State.emit_retry (k : EvKind) (c : Option Byte) : (s.emit k c).retry = s.retry := rfl
@[simp] theorem State.emit_pretry (k : EvKind) (c : Option Byte) : (s.emit k c).pretry = s.pretry := rfl
@[simp] theorem State.emit_idLo (k : EvKind) (c : Option Byte) : (s.emit k c).idLo = s.idLo := rfl
@[simp] theorem State.emit_idHi (k : EvKind) (c : Option Byte) : (s.emit k c).idHi = s.idHi := rfl
@[simp] theorem State.emit_nextFree (k : EvKind) (c : Option Byte) : (s.emit k c).nextFree = s.nextFree := rfl
@[simp] theorem State.emit_dirCount (k : EvKind) (c : Option Byte) : (s.emit k c).dirCount = s.dirCount := rfl
@[simp] theorem State.emit_txf (k : EvKind) (c : Option Byte) : (s.emit k c).txf = s.txf := rfl
@[simp] theorem State.emit_ack (k : EvKind) (c : Option Byte) : (s.emit k c).ack = s.ack := rfl
@[simp] theorem State.emit_pbuf (k : EvKind) (c : Option Byte) : (s.emit k c).pbuf = s.pbuf := rfl
@[simp] theorem State.emit_hbuf (k : EvKind) (c : Option Byte) : (s.emit k c).hbuf = s.hbuf := rfl
@[simp] theorem State.emit_tbuf (k : EvKind) (c : Option Byte) : (s.emit k c).tbuf = s.tbuf := rfl
@[simp] theorem State.emit_ibuf (k : EvKind) (c : Option Byte) : (s.emit k c).ibuf = s.ibuf := rfl
@[simp] theorem State.emit_dirmap (k : EvKind) (c : Option Byte) : (s.emit k c).dirmap = s.dirmap := rfl
@[simp] theorem State.emit_txlog (k : EvKind) (c : Option Byte) : (s.emit k c).txlog = s.txlog := rfl
@[simp] theorem State.emit_evlog (k : EvKind) (c : Option Byte) : (s.emit k c).evlog = s.evlog ++ [(k, c)] := rfl
@[simp] theorem State.emit_cfg (k : EvKind) (c : Option Byte) : (s.emit k c).cfg = s.cfg := rfl
@[simp] theorem State.emit_portlog (k : EvKind) (c : Option Byte) : (s.emit k c).portlog = s.portlog ++ k.pulses c := rfl
@[simp] theorem State.emit_epoch (k : EvKind) (c : Option Byte) : (s.emit k c).epoch = s.epoch := rfl
@[simp] theorem State.emit_inbox (k : EvKind) (c : Option Byte) : (s.emit k c).inbox = s.inbox := rfl

/-! ### setResult -/

@[simp] theorem State.setResult_x (r : ResultClass) (c : Byte) : (s.setResult r c).x = s.x := rfl
@[simp] theorem State.setResult_channel (r : ResultClass) (c : Byte) : (s.setResult r c).channel = s.channel := rfl
@[simp] theorem State.setResult_baud (r : ResultClass) (c : Byte) : (s.setResult r c).baud = s.baud := rfl
@[simp] theorem State.setResult_idIn (r : ResultClass) (c : Byte) : (s.setResult r c).idIn = s.idIn := rfl
@[simp] theorem State.setResult_fmt (r : ResultClass) (c : Byte) : (s.setResult r c).fmt = s.fmt := rfl
@[simp] theorem State.setResult_hlen (r : ResultClass) (c : Byte) : (s.setResult r c).hlen = s.hlen := rfl
@[simp] theorem State.setResult_entryCount (r : ResultClass) (c : Byte) : (s.setResult r c).entryCount = s.entryCount := rfl
@[simp] theorem State.setResult_expectLen (r : ResultClass) (c : Byte) : (s.setResult r c).expectLen = s.expectLen := rfl
@[simp] theorem State.setResult_txlen (r : ResultClass) (c : Byte) : (s.setResult r c).txlen = s.txlen := rfl
@[simp] theorem State.setResult_rlen (r : ResultClass) (c : Byte) : (s.setResult r c).rlen = s.rlen := rfl
@[simp] theorem State.setResult_payloadRetryLimit (r : ResultClass) (c : Byte) : (s.setResult r c).payloadRetryLimit = s.payloadRetryLimit := rfl
@[simp] theorem State.setResult_st (r : ResultClass) (c : Byte) : (s.setResult r c).st = s.st := rfl
@[simp] theorem State.setResult_busy (r : ResultClass) (c : Byte) : (s.setResult r c).busy = s.busy := rfl
@[simp] theorem State.setResult_degraded (r : ResultClass) (c : Byte) : (s.setResult r c).degraded = s.degraded := rfl
@[simp] theorem State.setResult_p1Valid (r : ResultClass) (c : Byte) : (s.setResult r c).p1Valid = s.p1Valid := rfl
@[simp] theorem State.setResult_p2Valid (r : ResultClass) (c : Byte) : (s.setResult r c).p2Valid = s.p2Valid := rfl
@[simp] theorem State.setResult_wBusyViol (r : ResultClass) (c : Byte) : (s.setResult r c).wBusyViol = s.wBusyViol := rfl
@[simp] theorem State.setResult_wBadDigit (r : ResultClass) (c : Byte) : (s.setResult r c).wBadDigit = s.wBadDigit := rfl
@[simp] theorem State.setResult_wTplClip (r : ResultClass) (c : Byte) : (s.setResult r c).wTplClip = s.wTplClip := rfl
@[simp] theorem State.setResult_wTplOor (r : ResultClass) (c : Byte) : (s.setResult r c).wTplOor = s.wTplOor := rfl
@[simp] theorem State.setResult_wPbufOvf (r : ResultClass) (c : Byte) : (s.setResult r c).wPbufOvf = s.wPbufOvf := rfl
@[simp] theorem State.setResult_resultClass (r : ResultClass) (c : Byte) : (s.setResult r c).resultClass = r := rfl
@[simp] theorem State.setResult_resultCode (r : ResultClass) (c : Byte) : (s.setResult r c).resultCode = c := rfl
@[simp] theorem State.setResult_evt (r : ResultClass) (c : Byte) : (s.setResult r c).evt = s.evt := rfl
@[simp] theorem State.setResult_evtEn (r : ResultClass) (c : Byte) : (s.setResult r c).evtEn = s.evtEn := rfl
@[simp] theorem State.setResult_evtCode (r : ResultClass) (c : Byte) : (s.setResult r c).evtCode = s.evtCode := rfl
@[simp] theorem State.setResult_errcode (r : ResultClass) (c : Byte) : (s.setResult r c).errcode = s.errcode := rfl
@[simp] theorem State.setResult_param1 (r : ResultClass) (c : Byte) : (s.setResult r c).param1 = s.param1 := rfl
@[simp] theorem State.setResult_param2 (r : ResultClass) (c : Byte) : (s.setResult r c).param2 = s.param2 := rfl
@[simp] theorem State.setResult_declen (r : ResultClass) (c : Byte) : (s.setResult r c).declen = s.declen := rfl
@[simp] theorem State.setResult_lcmd (r : ResultClass) (c : Byte) : (s.setResult r c).lcmd = s.lcmd := rfl
@[simp] theorem State.setResult_wtimer (r : ResultClass) (c : Byte) : (s.setResult r c).wtimer = s.wtimer := rfl
@[simp] theorem State.setResult_retry (r : ResultClass) (c : Byte) : (s.setResult r c).retry = s.retry := rfl
@[simp] theorem State.setResult_pretry (r : ResultClass) (c : Byte) : (s.setResult r c).pretry = s.pretry := rfl
@[simp] theorem State.setResult_idLo (r : ResultClass) (c : Byte) : (s.setResult r c).idLo = s.idLo := rfl
@[simp] theorem State.setResult_idHi (r : ResultClass) (c : Byte) : (s.setResult r c).idHi = s.idHi := rfl
@[simp] theorem State.setResult_nextFree (r : ResultClass) (c : Byte) : (s.setResult r c).nextFree = s.nextFree := rfl
@[simp] theorem State.setResult_dirCount (r : ResultClass) (c : Byte) : (s.setResult r c).dirCount = s.dirCount := rfl
@[simp] theorem State.setResult_txf (r : ResultClass) (c : Byte) : (s.setResult r c).txf = s.txf := rfl
@[simp] theorem State.setResult_ack (r : ResultClass) (c : Byte) : (s.setResult r c).ack = s.ack := rfl
@[simp] theorem State.setResult_pbuf (r : ResultClass) (c : Byte) : (s.setResult r c).pbuf = s.pbuf := rfl
@[simp] theorem State.setResult_hbuf (r : ResultClass) (c : Byte) : (s.setResult r c).hbuf = s.hbuf := rfl
@[simp] theorem State.setResult_tbuf (r : ResultClass) (c : Byte) : (s.setResult r c).tbuf = s.tbuf := rfl
@[simp] theorem State.setResult_ibuf (r : ResultClass) (c : Byte) : (s.setResult r c).ibuf = s.ibuf := rfl
@[simp] theorem State.setResult_dirmap (r : ResultClass) (c : Byte) : (s.setResult r c).dirmap = s.dirmap := rfl
@[simp] theorem State.setResult_txlog (r : ResultClass) (c : Byte) : (s.setResult r c).txlog = s.txlog := rfl
@[simp] theorem State.setResult_evlog (r : ResultClass) (c : Byte) : (s.setResult r c).evlog = s.evlog := rfl
@[simp] theorem State.setResult_cfg (r : ResultClass) (c : Byte) : (s.setResult r c).cfg = s.cfg := rfl
@[simp] theorem State.setResult_portlog (r : ResultClass) (c : Byte) : (s.setResult r c).portlog = s.portlog := rfl
@[simp] theorem State.setResult_epoch (r : ResultClass) (c : Byte) : (s.setResult r c).epoch = s.epoch := rfl
@[simp] theorem State.setResult_inbox (r : ResultClass) (c : Byte) : (s.setResult r c).inbox = s.inbox := rfl

/-! ### complete -/

@[simp] theorem State.complete_x : (s.complete).x = s.x := rfl
@[simp] theorem State.complete_channel : (s.complete).channel = s.channel := rfl
@[simp] theorem State.complete_baud : (s.complete).baud = s.baud := rfl
@[simp] theorem State.complete_idIn : (s.complete).idIn = s.idIn := rfl
@[simp] theorem State.complete_fmt : (s.complete).fmt = s.fmt := rfl
@[simp] theorem State.complete_hlen : (s.complete).hlen = s.hlen := rfl
@[simp] theorem State.complete_entryCount : (s.complete).entryCount = s.entryCount := rfl
@[simp] theorem State.complete_expectLen : (s.complete).expectLen = s.expectLen := rfl
@[simp] theorem State.complete_txlen : (s.complete).txlen = s.txlen := rfl
@[simp] theorem State.complete_rlen : (s.complete).rlen = s.rlen := rfl
@[simp] theorem State.complete_payloadRetryLimit : (s.complete).payloadRetryLimit = s.payloadRetryLimit := rfl
@[simp] theorem State.complete_st : (s.complete).st = s.st := rfl
@[simp] theorem State.complete_busy : (s.complete).busy = s.busy := rfl
@[simp] theorem State.complete_degraded : (s.complete).degraded = s.degraded := rfl
@[simp] theorem State.complete_p1Valid : (s.complete).p1Valid = s.p1Valid := rfl
@[simp] theorem State.complete_p2Valid : (s.complete).p2Valid = s.p2Valid := rfl
@[simp] theorem State.complete_wBusyViol : (s.complete).wBusyViol = s.wBusyViol := rfl
@[simp] theorem State.complete_wBadDigit : (s.complete).wBadDigit = s.wBadDigit := rfl
@[simp] theorem State.complete_wTplClip : (s.complete).wTplClip = s.wTplClip := rfl
@[simp] theorem State.complete_wTplOor : (s.complete).wTplOor = s.wTplOor := rfl
@[simp] theorem State.complete_wPbufOvf : (s.complete).wPbufOvf = s.wPbufOvf := rfl
@[simp] theorem State.complete_resultClass : (s.complete).resultClass = .ok := rfl
@[simp] theorem State.complete_resultCode : (s.complete).resultCode = 0 := rfl
@[simp] theorem State.complete_evt : (s.complete).evt = s.evt ||| 1 := rfl
@[simp] theorem State.complete_evtEn : (s.complete).evtEn = s.evtEn := rfl
@[simp] theorem State.complete_evtCode : (s.complete).evtCode = s.evtCode := rfl
@[simp] theorem State.complete_errcode : (s.complete).errcode = s.errcode := rfl
@[simp] theorem State.complete_param1 : (s.complete).param1 = s.param1 := rfl
@[simp] theorem State.complete_param2 : (s.complete).param2 = s.param2 := rfl
@[simp] theorem State.complete_declen : (s.complete).declen = s.declen := rfl
@[simp] theorem State.complete_lcmd : (s.complete).lcmd = s.lcmd := rfl
@[simp] theorem State.complete_wtimer : (s.complete).wtimer = s.wtimer := rfl
@[simp] theorem State.complete_retry : (s.complete).retry = s.retry := rfl
@[simp] theorem State.complete_pretry : (s.complete).pretry = s.pretry := rfl
@[simp] theorem State.complete_idLo : (s.complete).idLo = s.idLo := rfl
@[simp] theorem State.complete_idHi : (s.complete).idHi = s.idHi := rfl
@[simp] theorem State.complete_nextFree : (s.complete).nextFree = s.nextFree := rfl
@[simp] theorem State.complete_dirCount : (s.complete).dirCount = s.dirCount := rfl
@[simp] theorem State.complete_txf : (s.complete).txf = s.txf := rfl
@[simp] theorem State.complete_ack : (s.complete).ack = s.ack := rfl
@[simp] theorem State.complete_pbuf : (s.complete).pbuf = s.pbuf := rfl
@[simp] theorem State.complete_hbuf : (s.complete).hbuf = s.hbuf := rfl
@[simp] theorem State.complete_tbuf : (s.complete).tbuf = s.tbuf := rfl
@[simp] theorem State.complete_ibuf : (s.complete).ibuf = s.ibuf := rfl
@[simp] theorem State.complete_dirmap : (s.complete).dirmap = s.dirmap := rfl
@[simp] theorem State.complete_txlog : (s.complete).txlog = s.txlog := rfl
@[simp] theorem State.complete_evlog : (s.complete).evlog = s.evlog ++ [(.done, none)] := rfl
@[simp] theorem State.complete_cfg : (s.complete).cfg = s.cfg := rfl
@[simp] theorem State.complete_portlog : (s.complete).portlog = s.portlog := List.append_nil _
@[simp] theorem State.complete_epoch : (s.complete).epoch = s.epoch := rfl
@[simp] theorem State.complete_inbox : (s.complete).inbox = s.inbox := rfl

/-! ### refuse -/

@[simp] theorem State.refuse_x (c : Byte) : (s.refuse c).x = s.x := rfl
@[simp] theorem State.refuse_channel (c : Byte) : (s.refuse c).channel = s.channel := rfl
@[simp] theorem State.refuse_baud (c : Byte) : (s.refuse c).baud = s.baud := rfl
@[simp] theorem State.refuse_idIn (c : Byte) : (s.refuse c).idIn = s.idIn := rfl
@[simp] theorem State.refuse_fmt (c : Byte) : (s.refuse c).fmt = s.fmt := rfl
@[simp] theorem State.refuse_hlen (c : Byte) : (s.refuse c).hlen = s.hlen := rfl
@[simp] theorem State.refuse_entryCount (c : Byte) : (s.refuse c).entryCount = s.entryCount := rfl
@[simp] theorem State.refuse_expectLen (c : Byte) : (s.refuse c).expectLen = s.expectLen := rfl
@[simp] theorem State.refuse_txlen (c : Byte) : (s.refuse c).txlen = s.txlen := rfl
@[simp] theorem State.refuse_rlen (c : Byte) : (s.refuse c).rlen = s.rlen := rfl
@[simp] theorem State.refuse_payloadRetryLimit (c : Byte) : (s.refuse c).payloadRetryLimit = s.payloadRetryLimit := rfl
@[simp] theorem State.refuse_st (c : Byte) : (s.refuse c).st = s.st := rfl
@[simp] theorem State.refuse_busy (c : Byte) : (s.refuse c).busy = s.busy := rfl
@[simp] theorem State.refuse_degraded (c : Byte) : (s.refuse c).degraded = s.degraded := rfl
@[simp] theorem State.refuse_p1Valid (c : Byte) : (s.refuse c).p1Valid = s.p1Valid := rfl
@[simp] theorem State.refuse_p2Valid (c : Byte) : (s.refuse c).p2Valid = s.p2Valid := rfl
@[simp] theorem State.refuse_wBusyViol (c : Byte) : (s.refuse c).wBusyViol = s.wBusyViol := rfl
@[simp] theorem State.refuse_wBadDigit (c : Byte) : (s.refuse c).wBadDigit = s.wBadDigit := rfl
@[simp] theorem State.refuse_wTplClip (c : Byte) : (s.refuse c).wTplClip = s.wTplClip := rfl
@[simp] theorem State.refuse_wTplOor (c : Byte) : (s.refuse c).wTplOor = s.wTplOor := rfl
@[simp] theorem State.refuse_wPbufOvf (c : Byte) : (s.refuse c).wPbufOvf = s.wPbufOvf := rfl
@[simp] theorem State.refuse_resultClass (c : Byte) : (s.refuse c).resultClass = .illegalRequest := rfl
@[simp] theorem State.refuse_resultCode (c : Byte) : (s.refuse c).resultCode = c := rfl
@[simp] theorem State.refuse_evt (c : Byte) : (s.refuse c).evt = s.evt ||| 1 := rfl
@[simp] theorem State.refuse_evtEn (c : Byte) : (s.refuse c).evtEn = s.evtEn := rfl
@[simp] theorem State.refuse_evtCode (c : Byte) : (s.refuse c).evtCode = s.evtCode := rfl
@[simp] theorem State.refuse_errcode (c : Byte) : (s.refuse c).errcode = s.errcode := rfl
@[simp] theorem State.refuse_param1 (c : Byte) : (s.refuse c).param1 = s.param1 := rfl
@[simp] theorem State.refuse_param2 (c : Byte) : (s.refuse c).param2 = s.param2 := rfl
@[simp] theorem State.refuse_declen (c : Byte) : (s.refuse c).declen = s.declen := rfl
@[simp] theorem State.refuse_lcmd (c : Byte) : (s.refuse c).lcmd = s.lcmd := rfl
@[simp] theorem State.refuse_wtimer (c : Byte) : (s.refuse c).wtimer = s.wtimer := rfl
@[simp] theorem State.refuse_retry (c : Byte) : (s.refuse c).retry = s.retry := rfl
@[simp] theorem State.refuse_pretry (c : Byte) : (s.refuse c).pretry = s.pretry := rfl
@[simp] theorem State.refuse_idLo (c : Byte) : (s.refuse c).idLo = s.idLo := rfl
@[simp] theorem State.refuse_idHi (c : Byte) : (s.refuse c).idHi = s.idHi := rfl
@[simp] theorem State.refuse_nextFree (c : Byte) : (s.refuse c).nextFree = s.nextFree := rfl
@[simp] theorem State.refuse_dirCount (c : Byte) : (s.refuse c).dirCount = s.dirCount := rfl
@[simp] theorem State.refuse_txf (c : Byte) : (s.refuse c).txf = s.txf := rfl
@[simp] theorem State.refuse_ack (c : Byte) : (s.refuse c).ack = s.ack := rfl
@[simp] theorem State.refuse_pbuf (c : Byte) : (s.refuse c).pbuf = s.pbuf := rfl
@[simp] theorem State.refuse_hbuf (c : Byte) : (s.refuse c).hbuf = s.hbuf := rfl
@[simp] theorem State.refuse_tbuf (c : Byte) : (s.refuse c).tbuf = s.tbuf := rfl
@[simp] theorem State.refuse_ibuf (c : Byte) : (s.refuse c).ibuf = s.ibuf := rfl
@[simp] theorem State.refuse_dirmap (c : Byte) : (s.refuse c).dirmap = s.dirmap := rfl
@[simp] theorem State.refuse_txlog (c : Byte) : (s.refuse c).txlog = s.txlog := rfl
@[simp] theorem State.refuse_evlog (c : Byte) : (s.refuse c).evlog = s.evlog ++ [(.done, none)] := rfl
@[simp] theorem State.refuse_cfg (c : Byte) : (s.refuse c).cfg = s.cfg := rfl
@[simp] theorem State.refuse_portlog (c : Byte) : (s.refuse c).portlog = s.portlog := List.append_nil _
@[simp] theorem State.refuse_epoch (c : Byte) : (s.refuse c).epoch = s.epoch := rfl
@[simp] theorem State.refuse_inbox (c : Byte) : (s.refuse c).inbox = s.inbox := rfl

/-! ### endCycle -/

@[simp] theorem State.endCycle_x (q : SeqState) (r : ResultClass) (c : Byte) : (s.endCycle q r c).x = s.x := rfl
@[simp] theorem State.endCycle_channel (q : SeqState) (r : ResultClass) (c : Byte) : (s.endCycle q r c).channel = s.channel := rfl
@[simp] theorem State.endCycle_baud (q : SeqState) (r : ResultClass) (c : Byte) : (s.endCycle q r c).baud = s.baud := rfl
@[simp] theorem State.endCycle_idIn (q : SeqState) (r : ResultClass) (c : Byte) : (s.endCycle q r c).idIn = s.idIn := rfl
@[simp] theorem State.endCycle_fmt (q : SeqState) (r : ResultClass) (c : Byte) : (s.endCycle q r c).fmt = s.fmt := rfl
@[simp] theorem State.endCycle_hlen (q : SeqState) (r : ResultClass) (c : Byte) : (s.endCycle q r c).hlen = s.hlen := rfl
@[simp] theorem State.endCycle_entryCount (q : SeqState) (r : ResultClass) (c : Byte) : (s.endCycle q r c).entryCount = s.entryCount := rfl
@[simp] theorem State.endCycle_expectLen (q : SeqState) (r : ResultClass) (c : Byte) : (s.endCycle q r c).expectLen = s.expectLen := rfl
@[simp] theorem State.endCycle_txlen (q : SeqState) (r : ResultClass) (c : Byte) : (s.endCycle q r c).txlen = s.txlen := rfl
@[simp] theorem State.endCycle_rlen (q : SeqState) (r : ResultClass) (c : Byte) : (s.endCycle q r c).rlen = s.rlen := rfl
@[simp] theorem State.endCycle_payloadRetryLimit (q : SeqState) (r : ResultClass) (c : Byte) : (s.endCycle q r c).payloadRetryLimit = s.payloadRetryLimit := rfl
@[simp] theorem State.endCycle_st (q : SeqState) (r : ResultClass) (c : Byte) : (s.endCycle q r c).st = q := rfl
@[simp] theorem State.endCycle_busy (q : SeqState) (r : ResultClass) (c : Byte) : (s.endCycle q r c).busy = false := rfl
@[simp] theorem State.endCycle_degraded (q : SeqState) (r : ResultClass) (c : Byte) : (s.endCycle q r c).degraded = s.degraded := rfl
@[simp] theorem State.endCycle_p1Valid (q : SeqState) (r : ResultClass) (c : Byte) : (s.endCycle q r c).p1Valid = s.p1Valid := rfl
@[simp] theorem State.endCycle_p2Valid (q : SeqState) (r : ResultClass) (c : Byte) : (s.endCycle q r c).p2Valid = s.p2Valid := rfl
@[simp] theorem State.endCycle_wBusyViol (q : SeqState) (r : ResultClass) (c : Byte) : (s.endCycle q r c).wBusyViol = s.wBusyViol := rfl
@[simp] theorem State.endCycle_wBadDigit (q : SeqState) (r : ResultClass) (c : Byte) : (s.endCycle q r c).wBadDigit = s.wBadDigit := rfl
@[simp] theorem State.endCycle_wTplClip (q : SeqState) (r : ResultClass) (c : Byte) : (s.endCycle q r c).wTplClip = s.wTplClip := rfl
@[simp] theorem State.endCycle_wTplOor (q : SeqState) (r : ResultClass) (c : Byte) : (s.endCycle q r c).wTplOor = s.wTplOor := rfl
@[simp] theorem State.endCycle_wPbufOvf (q : SeqState) (r : ResultClass) (c : Byte) : (s.endCycle q r c).wPbufOvf = s.wPbufOvf := rfl
@[simp] theorem State.endCycle_resultClass (q : SeqState) (r : ResultClass) (c : Byte) : (s.endCycle q r c).resultClass = r := rfl
@[simp] theorem State.endCycle_resultCode (q : SeqState) (r : ResultClass) (c : Byte) : (s.endCycle q r c).resultCode = c := rfl
@[simp] theorem State.endCycle_evt (q : SeqState) (r : ResultClass) (c : Byte) : (s.endCycle q r c).evt = s.evt ||| 1 := rfl
@[simp] theorem State.endCycle_evtEn (q : SeqState) (r : ResultClass) (c : Byte) : (s.endCycle q r c).evtEn = s.evtEn := rfl
@[simp] theorem State.endCycle_evtCode (q : SeqState) (r : ResultClass) (c : Byte) : (s.endCycle q r c).evtCode = s.evtCode := rfl
@[simp] theorem State.endCycle_errcode (q : SeqState) (r : ResultClass) (c : Byte) : (s.endCycle q r c).errcode = s.errcode := rfl
@[simp] theorem State.endCycle_param1 (q : SeqState) (r : ResultClass) (c : Byte) : (s.endCycle q r c).param1 = s.param1 := rfl
@[simp] theorem State.endCycle_param2 (q : SeqState) (r : ResultClass) (c : Byte) : (s.endCycle q r c).param2 = s.param2 := rfl
@[simp] theorem State.endCycle_declen (q : SeqState) (r : ResultClass) (c : Byte) : (s.endCycle q r c).declen = s.declen := rfl
@[simp] theorem State.endCycle_lcmd (q : SeqState) (r : ResultClass) (c : Byte) : (s.endCycle q r c).lcmd = s.lcmd := rfl
@[simp] theorem State.endCycle_wtimer (q : SeqState) (r : ResultClass) (c : Byte) : (s.endCycle q r c).wtimer = s.wtimer := rfl
@[simp] theorem State.endCycle_retry (q : SeqState) (r : ResultClass) (c : Byte) : (s.endCycle q r c).retry = s.retry := rfl
@[simp] theorem State.endCycle_pretry (q : SeqState) (r : ResultClass) (c : Byte) : (s.endCycle q r c).pretry = s.pretry := rfl
@[simp] theorem State.endCycle_idLo (q : SeqState) (r : ResultClass) (c : Byte) : (s.endCycle q r c).idLo = s.idLo := rfl
@[simp] theorem State.endCycle_idHi (q : SeqState) (r : ResultClass) (c : Byte) : (s.endCycle q r c).idHi = s.idHi := rfl
@[simp] theorem State.endCycle_nextFree (q : SeqState) (r : ResultClass) (c : Byte) : (s.endCycle q r c).nextFree = s.nextFree := rfl
@[simp] theorem State.endCycle_dirCount (q : SeqState) (r : ResultClass) (c : Byte) : (s.endCycle q r c).dirCount = s.dirCount := rfl
@[simp] theorem State.endCycle_txf (q : SeqState) (r : ResultClass) (c : Byte) : (s.endCycle q r c).txf = s.txf := rfl
@[simp] theorem State.endCycle_ack (q : SeqState) (r : ResultClass) (c : Byte) : (s.endCycle q r c).ack = s.ack := rfl
@[simp] theorem State.endCycle_pbuf (q : SeqState) (r : ResultClass) (c : Byte) : (s.endCycle q r c).pbuf = s.pbuf := rfl
@[simp] theorem State.endCycle_hbuf (q : SeqState) (r : ResultClass) (c : Byte) : (s.endCycle q r c).hbuf = s.hbuf := rfl
@[simp] theorem State.endCycle_tbuf (q : SeqState) (r : ResultClass) (c : Byte) : (s.endCycle q r c).tbuf = s.tbuf := rfl
@[simp] theorem State.endCycle_ibuf (q : SeqState) (r : ResultClass) (c : Byte) : (s.endCycle q r c).ibuf = s.ibuf := rfl
@[simp] theorem State.endCycle_dirmap (q : SeqState) (r : ResultClass) (c : Byte) : (s.endCycle q r c).dirmap = s.dirmap := rfl
@[simp] theorem State.endCycle_txlog (q : SeqState) (r : ResultClass) (c : Byte) : (s.endCycle q r c).txlog = s.txlog := rfl
@[simp] theorem State.endCycle_evlog (q : SeqState) (r : ResultClass) (c : Byte) : (s.endCycle q r c).evlog = s.evlog ++ [(.done, none)] := rfl
@[simp] theorem State.endCycle_cfg (q : SeqState) (r : ResultClass) (c : Byte) : (s.endCycle q r c).cfg = s.cfg := rfl
@[simp] theorem State.endCycle_portlog (q : SeqState) (r : ResultClass) (c : Byte) : (s.endCycle q r c).portlog = s.portlog ++ [.tpClose] := List.append_nil _
@[simp] theorem State.endCycle_epoch (q : SeqState) (r : ResultClass) (c : Byte) : (s.endCycle q r c).epoch = s.epoch := rfl
@[simp] theorem State.endCycle_inbox (q : SeqState) (r : ResultClass) (c : Byte) : (s.endCycle q r c).inbox = s.inbox := rfl

/-! ### busyViolation -/

@[simp] theorem State.busyViolation_x : (s.busyViolation).x = s.x := rfl
@[simp] theorem State.busyViolation_channel : (s.busyViolation).channel = s.channel := rfl
@[simp] theorem State.busyViolation_baud : (s.busyViolation).baud = s.baud := rfl
@[simp] theorem State.busyViolation_idIn : (s.busyViolation).idIn = s.idIn := rfl
@[simp] theorem State.busyViolation_fmt : (s.busyViolation).fmt = s.fmt := rfl
@[simp] theorem State.busyViolation_hlen : (s.busyViolation).hlen = s.hlen := rfl
@[simp] theorem State.busyViolation_entryCount : (s.busyViolation).entryCount = s.entryCount := rfl
@[simp] theorem State.busyViolation_expectLen : (s.busyViolation).expectLen = s.expectLen := rfl
@[simp] theorem State.busyViolation_txlen : (s.busyViolation).txlen = s.txlen := rfl
@[simp] theorem State.busyViolation_rlen : (s.busyViolation).rlen = s.rlen := rfl
@[simp] theorem State.busyViolation_payloadRetryLimit : (s.busyViolation).payloadRetryLimit = s.payloadRetryLimit := rfl
@[simp] theorem State.busyViolation_st : (s.busyViolation).st = s.st := rfl
@[simp] theorem State.busyViolation_busy : (s.busyViolation).busy = s.busy := rfl
@[simp] theorem State.busyViolation_degraded : (s.busyViolation).degraded = s.degraded := rfl
@[simp] theorem State.busyViolation_p1Valid : (s.busyViolation).p1Valid = s.p1Valid := rfl
@[simp] theorem State.busyViolation_p2Valid : (s.busyViolation).p2Valid = s.p2Valid := rfl
@[simp] theorem State.busyViolation_wBusyViol : (s.busyViolation).wBusyViol = true := rfl
@[simp] theorem State.busyViolation_wBadDigit : (s.busyViolation).wBadDigit = s.wBadDigit := rfl
@[simp] theorem State.busyViolation_wTplClip : (s.busyViolation).wTplClip = s.wTplClip := rfl
@[simp] theorem State.busyViolation_wTplOor : (s.busyViolation).wTplOor = s.wTplOor := rfl
@[simp] theorem State.busyViolation_wPbufOvf : (s.busyViolation).wPbufOvf = s.wPbufOvf := rfl
@[simp] theorem State.busyViolation_resultClass : (s.busyViolation).resultClass = s.resultClass := rfl
@[simp] theorem State.busyViolation_resultCode : (s.busyViolation).resultCode = s.resultCode := rfl
@[simp] theorem State.busyViolation_evt : (s.busyViolation).evt = s.evt := rfl
@[simp] theorem State.busyViolation_evtEn : (s.busyViolation).evtEn = s.evtEn := rfl
@[simp] theorem State.busyViolation_evtCode : (s.busyViolation).evtCode = s.evtCode := rfl
@[simp] theorem State.busyViolation_errcode : (s.busyViolation).errcode = s.errcode := rfl
@[simp] theorem State.busyViolation_param1 : (s.busyViolation).param1 = s.param1 := rfl
@[simp] theorem State.busyViolation_param2 : (s.busyViolation).param2 = s.param2 := rfl
@[simp] theorem State.busyViolation_declen : (s.busyViolation).declen = s.declen := rfl
@[simp] theorem State.busyViolation_lcmd : (s.busyViolation).lcmd = s.lcmd := rfl
@[simp] theorem State.busyViolation_wtimer : (s.busyViolation).wtimer = s.wtimer := rfl
@[simp] theorem State.busyViolation_retry : (s.busyViolation).retry = s.retry := rfl
@[simp] theorem State.busyViolation_pretry : (s.busyViolation).pretry = s.pretry := rfl
@[simp] theorem State.busyViolation_idLo : (s.busyViolation).idLo = s.idLo := rfl
@[simp] theorem State.busyViolation_idHi : (s.busyViolation).idHi = s.idHi := rfl
@[simp] theorem State.busyViolation_nextFree : (s.busyViolation).nextFree = s.nextFree := rfl
@[simp] theorem State.busyViolation_dirCount : (s.busyViolation).dirCount = s.dirCount := rfl
@[simp] theorem State.busyViolation_txf : (s.busyViolation).txf = s.txf := rfl
@[simp] theorem State.busyViolation_ack : (s.busyViolation).ack = s.ack := rfl
@[simp] theorem State.busyViolation_pbuf : (s.busyViolation).pbuf = s.pbuf := rfl
@[simp] theorem State.busyViolation_hbuf : (s.busyViolation).hbuf = s.hbuf := rfl
@[simp] theorem State.busyViolation_tbuf : (s.busyViolation).tbuf = s.tbuf := rfl
@[simp] theorem State.busyViolation_ibuf : (s.busyViolation).ibuf = s.ibuf := rfl
@[simp] theorem State.busyViolation_dirmap : (s.busyViolation).dirmap = s.dirmap := rfl
@[simp] theorem State.busyViolation_txlog : (s.busyViolation).txlog = s.txlog := rfl
@[simp] theorem State.busyViolation_evlog : (s.busyViolation).evlog = s.evlog := rfl
@[simp] theorem State.busyViolation_cfg : (s.busyViolation).cfg = s.cfg := rfl
@[simp] theorem State.busyViolation_portlog : (s.busyViolation).portlog = s.portlog := rfl
@[simp] theorem State.busyViolation_epoch : (s.busyViolation).epoch = s.epoch := rfl
@[simp] theorem State.busyViolation_inbox : (s.busyViolation).inbox = s.inbox := rfl

/-! ### noteBadDigit -/

@[simp] theorem State.noteBadDigit_x (b : Bool) : (s.noteBadDigit b).x = s.x := rfl
@[simp] theorem State.noteBadDigit_channel (b : Bool) : (s.noteBadDigit b).channel = s.channel := rfl
@[simp] theorem State.noteBadDigit_baud (b : Bool) : (s.noteBadDigit b).baud = s.baud := rfl
@[simp] theorem State.noteBadDigit_idIn (b : Bool) : (s.noteBadDigit b).idIn = s.idIn := rfl
@[simp] theorem State.noteBadDigit_fmt (b : Bool) : (s.noteBadDigit b).fmt = s.fmt := rfl
@[simp] theorem State.noteBadDigit_hlen (b : Bool) : (s.noteBadDigit b).hlen = s.hlen := rfl
@[simp] theorem State.noteBadDigit_entryCount (b : Bool) : (s.noteBadDigit b).entryCount = s.entryCount := rfl
@[simp] theorem State.noteBadDigit_expectLen (b : Bool) : (s.noteBadDigit b).expectLen = s.expectLen := rfl
@[simp] theorem State.noteBadDigit_txlen (b : Bool) : (s.noteBadDigit b).txlen = s.txlen := rfl
@[simp] theorem State.noteBadDigit_rlen (b : Bool) : (s.noteBadDigit b).rlen = s.rlen := rfl
@[simp] theorem State.noteBadDigit_payloadRetryLimit (b : Bool) : (s.noteBadDigit b).payloadRetryLimit = s.payloadRetryLimit := rfl
@[simp] theorem State.noteBadDigit_st (b : Bool) : (s.noteBadDigit b).st = s.st := rfl
@[simp] theorem State.noteBadDigit_busy (b : Bool) : (s.noteBadDigit b).busy = s.busy := rfl
@[simp] theorem State.noteBadDigit_degraded (b : Bool) : (s.noteBadDigit b).degraded = s.degraded := rfl
@[simp] theorem State.noteBadDigit_p1Valid (b : Bool) : (s.noteBadDigit b).p1Valid = s.p1Valid := rfl
@[simp] theorem State.noteBadDigit_p2Valid (b : Bool) : (s.noteBadDigit b).p2Valid = s.p2Valid := rfl
@[simp] theorem State.noteBadDigit_wBusyViol (b : Bool) : (s.noteBadDigit b).wBusyViol = s.wBusyViol := rfl
@[simp] theorem State.noteBadDigit_wBadDigit (b : Bool) : (s.noteBadDigit b).wBadDigit = (s.wBadDigit || b) := rfl
@[simp] theorem State.noteBadDigit_wTplClip (b : Bool) : (s.noteBadDigit b).wTplClip = s.wTplClip := rfl
@[simp] theorem State.noteBadDigit_wTplOor (b : Bool) : (s.noteBadDigit b).wTplOor = s.wTplOor := rfl
@[simp] theorem State.noteBadDigit_wPbufOvf (b : Bool) : (s.noteBadDigit b).wPbufOvf = s.wPbufOvf := rfl
@[simp] theorem State.noteBadDigit_resultClass (b : Bool) : (s.noteBadDigit b).resultClass = s.resultClass := rfl
@[simp] theorem State.noteBadDigit_resultCode (b : Bool) : (s.noteBadDigit b).resultCode = s.resultCode := rfl
@[simp] theorem State.noteBadDigit_evt (b : Bool) : (s.noteBadDigit b).evt = s.evt := rfl
@[simp] theorem State.noteBadDigit_evtEn (b : Bool) : (s.noteBadDigit b).evtEn = s.evtEn := rfl
@[simp] theorem State.noteBadDigit_evtCode (b : Bool) : (s.noteBadDigit b).evtCode = s.evtCode := rfl
@[simp] theorem State.noteBadDigit_errcode (b : Bool) : (s.noteBadDigit b).errcode = s.errcode := rfl
@[simp] theorem State.noteBadDigit_param1 (b : Bool) : (s.noteBadDigit b).param1 = s.param1 := rfl
@[simp] theorem State.noteBadDigit_param2 (b : Bool) : (s.noteBadDigit b).param2 = s.param2 := rfl
@[simp] theorem State.noteBadDigit_declen (b : Bool) : (s.noteBadDigit b).declen = s.declen := rfl
@[simp] theorem State.noteBadDigit_lcmd (b : Bool) : (s.noteBadDigit b).lcmd = s.lcmd := rfl
@[simp] theorem State.noteBadDigit_wtimer (b : Bool) : (s.noteBadDigit b).wtimer = s.wtimer := rfl
@[simp] theorem State.noteBadDigit_retry (b : Bool) : (s.noteBadDigit b).retry = s.retry := rfl
@[simp] theorem State.noteBadDigit_pretry (b : Bool) : (s.noteBadDigit b).pretry = s.pretry := rfl
@[simp] theorem State.noteBadDigit_idLo (b : Bool) : (s.noteBadDigit b).idLo = s.idLo := rfl
@[simp] theorem State.noteBadDigit_idHi (b : Bool) : (s.noteBadDigit b).idHi = s.idHi := rfl
@[simp] theorem State.noteBadDigit_nextFree (b : Bool) : (s.noteBadDigit b).nextFree = s.nextFree := rfl
@[simp] theorem State.noteBadDigit_dirCount (b : Bool) : (s.noteBadDigit b).dirCount = s.dirCount := rfl
@[simp] theorem State.noteBadDigit_txf (b : Bool) : (s.noteBadDigit b).txf = s.txf := rfl
@[simp] theorem State.noteBadDigit_ack (b : Bool) : (s.noteBadDigit b).ack = s.ack := rfl
@[simp] theorem State.noteBadDigit_pbuf (b : Bool) : (s.noteBadDigit b).pbuf = s.pbuf := rfl
@[simp] theorem State.noteBadDigit_hbuf (b : Bool) : (s.noteBadDigit b).hbuf = s.hbuf := rfl
@[simp] theorem State.noteBadDigit_tbuf (b : Bool) : (s.noteBadDigit b).tbuf = s.tbuf := rfl
@[simp] theorem State.noteBadDigit_ibuf (b : Bool) : (s.noteBadDigit b).ibuf = s.ibuf := rfl
@[simp] theorem State.noteBadDigit_dirmap (b : Bool) : (s.noteBadDigit b).dirmap = s.dirmap := rfl
@[simp] theorem State.noteBadDigit_txlog (b : Bool) : (s.noteBadDigit b).txlog = s.txlog := rfl
@[simp] theorem State.noteBadDigit_evlog (b : Bool) : (s.noteBadDigit b).evlog = s.evlog := rfl
@[simp] theorem State.noteBadDigit_cfg (b : Bool) : (s.noteBadDigit b).cfg = s.cfg := rfl
@[simp] theorem State.noteBadDigit_portlog (b : Bool) : (s.noteBadDigit b).portlog = s.portlog := rfl
@[simp] theorem State.noteBadDigit_epoch (b : Bool) : (s.noteBadDigit b).epoch = s.epoch := rfl
@[simp] theorem State.noteBadDigit_inbox (b : Bool) : (s.noteBadDigit b).inbox = s.inbox := rfl

/-! ### noteTemplate -/

@[simp] theorem State.noteTemplate_x (a b : Bool) : (s.noteTemplate a b).x = s.x := rfl
@[simp] theorem State.noteTemplate_channel (a b : Bool) : (s.noteTemplate a b).channel = s.channel := rfl
@[simp] theorem State.noteTemplate_baud (a b : Bool) : (s.noteTemplate a b).baud = s.baud := rfl
@[simp] theorem State.noteTemplate_idIn (a b : Bool) : (s.noteTemplate a b).idIn = s.idIn := rfl
@[simp] theorem State.noteTemplate_fmt (a b : Bool) : (s.noteTemplate a b).fmt = s.fmt := rfl
@[simp] theorem State.noteTemplate_hlen (a b : Bool) : (s.noteTemplate a b).hlen = s.hlen := rfl
@[simp] theorem State.noteTemplate_entryCount (a b : Bool) : (s.noteTemplate a b).entryCount = s.entryCount := rfl
@[simp] theorem State.noteTemplate_expectLen (a b : Bool) : (s.noteTemplate a b).expectLen = s.expectLen := rfl
@[simp] theorem State.noteTemplate_txlen (a b : Bool) : (s.noteTemplate a b).txlen = s.txlen := rfl
@[simp] theorem State.noteTemplate_rlen (a b : Bool) : (s.noteTemplate a b).rlen = s.rlen := rfl
@[simp] theorem State.noteTemplate_payloadRetryLimit (a b : Bool) : (s.noteTemplate a b).payloadRetryLimit = s.payloadRetryLimit := rfl
@[simp] theorem State.noteTemplate_st (a b : Bool) : (s.noteTemplate a b).st = s.st := rfl
@[simp] theorem State.noteTemplate_busy (a b : Bool) : (s.noteTemplate a b).busy = s.busy := rfl
@[simp] theorem State.noteTemplate_degraded (a b : Bool) : (s.noteTemplate a b).degraded = s.degraded := rfl
@[simp] theorem State.noteTemplate_p1Valid (a b : Bool) : (s.noteTemplate a b).p1Valid = s.p1Valid := rfl
@[simp] theorem State.noteTemplate_p2Valid (a b : Bool) : (s.noteTemplate a b).p2Valid = s.p2Valid := rfl
@[simp] theorem State.noteTemplate_wBusyViol (a b : Bool) : (s.noteTemplate a b).wBusyViol = s.wBusyViol := rfl
@[simp] theorem State.noteTemplate_wBadDigit (a b : Bool) : (s.noteTemplate a b).wBadDigit = s.wBadDigit := rfl
@[simp] theorem State.noteTemplate_wTplClip (a b : Bool) : (s.noteTemplate a b).wTplClip = (s.wTplClip || a) := rfl
@[simp] theorem State.noteTemplate_wTplOor (a b : Bool) : (s.noteTemplate a b).wTplOor = (s.wTplOor || b) := rfl
@[simp] theorem State.noteTemplate_wPbufOvf (a b : Bool) : (s.noteTemplate a b).wPbufOvf = s.wPbufOvf := rfl
@[simp] theorem State.noteTemplate_resultClass (a b : Bool) : (s.noteTemplate a b).resultClass = s.resultClass := rfl
@[simp] theorem State.noteTemplate_resultCode (a b : Bool) : (s.noteTemplate a b).resultCode = s.resultCode := rfl
@[simp] theorem State.noteTemplate_evt (a b : Bool) : (s.noteTemplate a b).evt = s.evt := rfl
@[simp] theorem State.noteTemplate_evtEn (a b : Bool) : (s.noteTemplate a b).evtEn = s.evtEn := rfl
@[simp] theorem State.noteTemplate_evtCode (a b : Bool) : (s.noteTemplate a b).evtCode = s.evtCode := rfl
@[simp] theorem State.noteTemplate_errcode (a b : Bool) : (s.noteTemplate a b).errcode = s.errcode := rfl
@[simp] theorem State.noteTemplate_param1 (a b : Bool) : (s.noteTemplate a b).param1 = s.param1 := rfl
@[simp] theorem State.noteTemplate_param2 (a b : Bool) : (s.noteTemplate a b).param2 = s.param2 := rfl
@[simp] theorem State.noteTemplate_declen (a b : Bool) : (s.noteTemplate a b).declen = s.declen := rfl
@[simp] theorem State.noteTemplate_lcmd (a b : Bool) : (s.noteTemplate a b).lcmd = s.lcmd := rfl
@[simp] theorem State.noteTemplate_wtimer (a b : Bool) : (s.noteTemplate a b).wtimer = s.wtimer := rfl
@[simp] theorem State.noteTemplate_retry (a b : Bool) : (s.noteTemplate a b).retry = s.retry := rfl
@[simp] theorem State.noteTemplate_pretry (a b : Bool) : (s.noteTemplate a b).pretry = s.pretry := rfl
@[simp] theorem State.noteTemplate_idLo (a b : Bool) : (s.noteTemplate a b).idLo = s.idLo := rfl
@[simp] theorem State.noteTemplate_idHi (a b : Bool) : (s.noteTemplate a b).idHi = s.idHi := rfl
@[simp] theorem State.noteTemplate_nextFree (a b : Bool) : (s.noteTemplate a b).nextFree = s.nextFree := rfl
@[simp] theorem State.noteTemplate_dirCount (a b : Bool) : (s.noteTemplate a b).dirCount = s.dirCount := rfl
@[simp] theorem State.noteTemplate_txf (a b : Bool) : (s.noteTemplate a b).txf = s.txf := rfl
@[simp] theorem State.noteTemplate_ack (a b : Bool) : (s.noteTemplate a b).ack = s.ack := rfl
@[simp] theorem State.noteTemplate_pbuf (a b : Bool) : (s.noteTemplate a b).pbuf = s.pbuf := rfl
@[simp] theorem State.noteTemplate_hbuf (a b : Bool) : (s.noteTemplate a b).hbuf = s.hbuf := rfl
@[simp] theorem State.noteTemplate_tbuf (a b : Bool) : (s.noteTemplate a b).tbuf = s.tbuf := rfl
@[simp] theorem State.noteTemplate_ibuf (a b : Bool) : (s.noteTemplate a b).ibuf = s.ibuf := rfl
@[simp] theorem State.noteTemplate_dirmap (a b : Bool) : (s.noteTemplate a b).dirmap = s.dirmap := rfl
@[simp] theorem State.noteTemplate_txlog (a b : Bool) : (s.noteTemplate a b).txlog = s.txlog := rfl
@[simp] theorem State.noteTemplate_evlog (a b : Bool) : (s.noteTemplate a b).evlog = s.evlog := rfl
@[simp] theorem State.noteTemplate_cfg (a b : Bool) : (s.noteTemplate a b).cfg = s.cfg := rfl
@[simp] theorem State.noteTemplate_portlog (a b : Bool) : (s.noteTemplate a b).portlog = s.portlog := rfl
@[simp] theorem State.noteTemplate_epoch (a b : Bool) : (s.noteTemplate a b).epoch = s.epoch := rfl
@[simp] theorem State.noteTemplate_inbox (a b : Bool) : (s.noteTemplate a b).inbox = s.inbox := rfl

/-! ### clearWarnings -/

@[simp] theorem State.clearWarnings_x (v : BusWord) : (s.clearWarnings v).x = s.x := rfl
@[simp] theorem State.clearWarnings_channel (v : BusWord) : (s.clearWarnings v).channel = s.channel := rfl
@[simp] theorem State.clearWarnings_baud (v : BusWord) : (s.clearWarnings v).baud = s.baud := rfl
@[simp] theorem State.clearWarnings_idIn (v : BusWord) : (s.clearWarnings v).idIn = s.idIn := rfl
@[simp] theorem State.clearWarnings_fmt (v : BusWord) : (s.clearWarnings v).fmt = s.fmt := rfl
@[simp] theorem State.clearWarnings_hlen (v : BusWord) : (s.clearWarnings v).hlen = s.hlen := rfl
@[simp] theorem State.clearWarnings_entryCount (v : BusWord) : (s.clearWarnings v).entryCount = s.entryCount := rfl
@[simp] theorem State.clearWarnings_expectLen (v : BusWord) : (s.clearWarnings v).expectLen = s.expectLen := rfl
@[simp] theorem State.clearWarnings_txlen (v : BusWord) : (s.clearWarnings v).txlen = s.txlen := rfl
@[simp] theorem State.clearWarnings_rlen (v : BusWord) : (s.clearWarnings v).rlen = s.rlen := rfl
@[simp] theorem State.clearWarnings_payloadRetryLimit (v : BusWord) : (s.clearWarnings v).payloadRetryLimit = s.payloadRetryLimit := rfl
@[simp] theorem State.clearWarnings_st (v : BusWord) : (s.clearWarnings v).st = s.st := rfl
@[simp] theorem State.clearWarnings_busy (v : BusWord) : (s.clearWarnings v).busy = s.busy := rfl
@[simp] theorem State.clearWarnings_degraded (v : BusWord) : (s.clearWarnings v).degraded = s.degraded := rfl
@[simp] theorem State.clearWarnings_p1Valid (v : BusWord) : (s.clearWarnings v).p1Valid = s.p1Valid := rfl
@[simp] theorem State.clearWarnings_p2Valid (v : BusWord) : (s.clearWarnings v).p2Valid = s.p2Valid := rfl
@[simp] theorem State.clearWarnings_wBusyViol (v : BusWord) : (s.clearWarnings v).wBusyViol = (s.wBusyViol && !v.getLsbD 8) := rfl
@[simp] theorem State.clearWarnings_wBadDigit (v : BusWord) : (s.clearWarnings v).wBadDigit = (s.wBadDigit && !v.getLsbD 9) := rfl
@[simp] theorem State.clearWarnings_wTplClip (v : BusWord) : (s.clearWarnings v).wTplClip = (s.wTplClip && !v.getLsbD 10) := rfl
@[simp] theorem State.clearWarnings_wTplOor (v : BusWord) : (s.clearWarnings v).wTplOor = (s.wTplOor && !v.getLsbD 11) := rfl
@[simp] theorem State.clearWarnings_wPbufOvf (v : BusWord) : (s.clearWarnings v).wPbufOvf = (s.wPbufOvf && !v.getLsbD 12) := rfl
@[simp] theorem State.clearWarnings_resultClass (v : BusWord) : (s.clearWarnings v).resultClass = s.resultClass := rfl
@[simp] theorem State.clearWarnings_resultCode (v : BusWord) : (s.clearWarnings v).resultCode = s.resultCode := rfl
@[simp] theorem State.clearWarnings_evt (v : BusWord) : (s.clearWarnings v).evt = s.evt := rfl
@[simp] theorem State.clearWarnings_evtEn (v : BusWord) : (s.clearWarnings v).evtEn = s.evtEn := rfl
@[simp] theorem State.clearWarnings_evtCode (v : BusWord) : (s.clearWarnings v).evtCode = s.evtCode := rfl
@[simp] theorem State.clearWarnings_errcode (v : BusWord) : (s.clearWarnings v).errcode = s.errcode := rfl
@[simp] theorem State.clearWarnings_param1 (v : BusWord) : (s.clearWarnings v).param1 = s.param1 := rfl
@[simp] theorem State.clearWarnings_param2 (v : BusWord) : (s.clearWarnings v).param2 = s.param2 := rfl
@[simp] theorem State.clearWarnings_declen (v : BusWord) : (s.clearWarnings v).declen = s.declen := rfl
@[simp] theorem State.clearWarnings_lcmd (v : BusWord) : (s.clearWarnings v).lcmd = s.lcmd := rfl
@[simp] theorem State.clearWarnings_wtimer (v : BusWord) : (s.clearWarnings v).wtimer = s.wtimer := rfl
@[simp] theorem State.clearWarnings_retry (v : BusWord) : (s.clearWarnings v).retry = s.retry := rfl
@[simp] theorem State.clearWarnings_pretry (v : BusWord) : (s.clearWarnings v).pretry = s.pretry := rfl
@[simp] theorem State.clearWarnings_idLo (v : BusWord) : (s.clearWarnings v).idLo = s.idLo := rfl
@[simp] theorem State.clearWarnings_idHi (v : BusWord) : (s.clearWarnings v).idHi = s.idHi := rfl
@[simp] theorem State.clearWarnings_nextFree (v : BusWord) : (s.clearWarnings v).nextFree = s.nextFree := rfl
@[simp] theorem State.clearWarnings_dirCount (v : BusWord) : (s.clearWarnings v).dirCount = s.dirCount := rfl
@[simp] theorem State.clearWarnings_txf (v : BusWord) : (s.clearWarnings v).txf = s.txf := rfl
@[simp] theorem State.clearWarnings_ack (v : BusWord) : (s.clearWarnings v).ack = s.ack := rfl
@[simp] theorem State.clearWarnings_pbuf (v : BusWord) : (s.clearWarnings v).pbuf = s.pbuf := rfl
@[simp] theorem State.clearWarnings_hbuf (v : BusWord) : (s.clearWarnings v).hbuf = s.hbuf := rfl
@[simp] theorem State.clearWarnings_tbuf (v : BusWord) : (s.clearWarnings v).tbuf = s.tbuf := rfl
@[simp] theorem State.clearWarnings_ibuf (v : BusWord) : (s.clearWarnings v).ibuf = s.ibuf := rfl
@[simp] theorem State.clearWarnings_dirmap (v : BusWord) : (s.clearWarnings v).dirmap = s.dirmap := rfl
@[simp] theorem State.clearWarnings_txlog (v : BusWord) : (s.clearWarnings v).txlog = s.txlog := rfl
@[simp] theorem State.clearWarnings_evlog (v : BusWord) : (s.clearWarnings v).evlog = s.evlog := rfl
@[simp] theorem State.clearWarnings_cfg (v : BusWord) : (s.clearWarnings v).cfg = s.cfg := rfl
@[simp] theorem State.clearWarnings_portlog (v : BusWord) : (s.clearWarnings v).portlog = s.portlog := rfl
@[simp] theorem State.clearWarnings_epoch (v : BusWord) : (s.clearWarnings v).epoch = s.epoch := rfl
@[simp] theorem State.clearWarnings_inbox (v : BusWord) : (s.clearWarnings v).inbox = s.inbox := rfl

/-! ### clearEvents -/

@[simp] theorem State.clearEvents_x (v : BusWord) : (s.clearEvents v).x = s.x := rfl
@[simp] theorem State.clearEvents_channel (v : BusWord) : (s.clearEvents v).channel = s.channel := rfl
@[simp] theorem State.clearEvents_baud (v : BusWord) : (s.clearEvents v).baud = s.baud := rfl
@[simp] theorem State.clearEvents_idIn (v : BusWord) : (s.clearEvents v).idIn = s.idIn := rfl
@[simp] theorem State.clearEvents_fmt (v : BusWord) : (s.clearEvents v).fmt = s.fmt := rfl
@[simp] theorem State.clearEvents_hlen (v : BusWord) : (s.clearEvents v).hlen = s.hlen := rfl
@[simp] theorem State.clearEvents_entryCount (v : BusWord) : (s.clearEvents v).entryCount = s.entryCount := rfl
@[simp] theorem State.clearEvents_expectLen (v : BusWord) : (s.clearEvents v).expectLen = s.expectLen := rfl
@[simp] theorem State.clearEvents_txlen (v : BusWord) : (s.clearEvents v).txlen = s.txlen := rfl
@[simp] theorem State.clearEvents_rlen (v : BusWord) : (s.clearEvents v).rlen = s.rlen := rfl
@[simp] theorem State.clearEvents_payloadRetryLimit (v : BusWord) : (s.clearEvents v).payloadRetryLimit = s.payloadRetryLimit := rfl
@[simp] theorem State.clearEvents_st (v : BusWord) : (s.clearEvents v).st = s.st := rfl
@[simp] theorem State.clearEvents_busy (v : BusWord) : (s.clearEvents v).busy = s.busy := rfl
@[simp] theorem State.clearEvents_degraded (v : BusWord) : (s.clearEvents v).degraded = s.degraded := rfl
@[simp] theorem State.clearEvents_p1Valid (v : BusWord) : (s.clearEvents v).p1Valid = s.p1Valid := rfl
@[simp] theorem State.clearEvents_p2Valid (v : BusWord) : (s.clearEvents v).p2Valid = s.p2Valid := rfl
@[simp] theorem State.clearEvents_wBusyViol (v : BusWord) : (s.clearEvents v).wBusyViol = s.wBusyViol := rfl
@[simp] theorem State.clearEvents_wBadDigit (v : BusWord) : (s.clearEvents v).wBadDigit = s.wBadDigit := rfl
@[simp] theorem State.clearEvents_wTplClip (v : BusWord) : (s.clearEvents v).wTplClip = s.wTplClip := rfl
@[simp] theorem State.clearEvents_wTplOor (v : BusWord) : (s.clearEvents v).wTplOor = s.wTplOor := rfl
@[simp] theorem State.clearEvents_wPbufOvf (v : BusWord) : (s.clearEvents v).wPbufOvf = s.wPbufOvf := rfl
@[simp] theorem State.clearEvents_resultClass (v : BusWord) : (s.clearEvents v).resultClass = s.resultClass := rfl
@[simp] theorem State.clearEvents_resultCode (v : BusWord) : (s.clearEvents v).resultCode = s.resultCode := rfl
@[simp] theorem State.clearEvents_evt (v : BusWord) : (s.clearEvents v).evt = s.evt &&& ~~~(v.setWidth 4) := rfl
@[simp] theorem State.clearEvents_evtEn (v : BusWord) : (s.clearEvents v).evtEn = s.evtEn := rfl
@[simp] theorem State.clearEvents_evtCode (v : BusWord) : (s.clearEvents v).evtCode = s.evtCode := rfl
@[simp] theorem State.clearEvents_errcode (v : BusWord) : (s.clearEvents v).errcode = s.errcode := rfl
@[simp] theorem State.clearEvents_param1 (v : BusWord) : (s.clearEvents v).param1 = s.param1 := rfl
@[simp] theorem State.clearEvents_param2 (v : BusWord) : (s.clearEvents v).param2 = s.param2 := rfl
@[simp] theorem State.clearEvents_declen (v : BusWord) : (s.clearEvents v).declen = s.declen := rfl
@[simp] theorem State.clearEvents_lcmd (v : BusWord) : (s.clearEvents v).lcmd = s.lcmd := rfl
@[simp] theorem State.clearEvents_wtimer (v : BusWord) : (s.clearEvents v).wtimer = s.wtimer := rfl
@[simp] theorem State.clearEvents_retry (v : BusWord) : (s.clearEvents v).retry = s.retry := rfl
@[simp] theorem State.clearEvents_pretry (v : BusWord) : (s.clearEvents v).pretry = s.pretry := rfl
@[simp] theorem State.clearEvents_idLo (v : BusWord) : (s.clearEvents v).idLo = s.idLo := rfl
@[simp] theorem State.clearEvents_idHi (v : BusWord) : (s.clearEvents v).idHi = s.idHi := rfl
@[simp] theorem State.clearEvents_nextFree (v : BusWord) : (s.clearEvents v).nextFree = s.nextFree := rfl
@[simp] theorem State.clearEvents_dirCount (v : BusWord) : (s.clearEvents v).dirCount = s.dirCount := rfl
@[simp] theorem State.clearEvents_txf (v : BusWord) : (s.clearEvents v).txf = s.txf := rfl
@[simp] theorem State.clearEvents_ack (v : BusWord) : (s.clearEvents v).ack = s.ack := rfl
@[simp] theorem State.clearEvents_pbuf (v : BusWord) : (s.clearEvents v).pbuf = s.pbuf := rfl
@[simp] theorem State.clearEvents_hbuf (v : BusWord) : (s.clearEvents v).hbuf = s.hbuf := rfl
@[simp] theorem State.clearEvents_tbuf (v : BusWord) : (s.clearEvents v).tbuf = s.tbuf := rfl
@[simp] theorem State.clearEvents_ibuf (v : BusWord) : (s.clearEvents v).ibuf = s.ibuf := rfl
@[simp] theorem State.clearEvents_dirmap (v : BusWord) : (s.clearEvents v).dirmap = s.dirmap := rfl
@[simp] theorem State.clearEvents_txlog (v : BusWord) : (s.clearEvents v).txlog = s.txlog := rfl
@[simp] theorem State.clearEvents_evlog (v : BusWord) : (s.clearEvents v).evlog = s.evlog := rfl
@[simp] theorem State.clearEvents_cfg (v : BusWord) : (s.clearEvents v).cfg = s.cfg := rfl
@[simp] theorem State.clearEvents_portlog (v : BusWord) : (s.clearEvents v).portlog = s.portlog := rfl
@[simp] theorem State.clearEvents_epoch (v : BusWord) : (s.clearEvents v).epoch = s.epoch := rfl
@[simp] theorem State.clearEvents_inbox (v : BusWord) : (s.clearEvents v).inbox = s.inbox := rfl

/-! ### loadOperands -/

@[simp] theorem State.loadOperands_x (c : Byte) (a : FrameArgs) : (s.loadOperands c a).x = #v[c, a.p1l, a.p1h, a.p2l, a.p2h, a.eal, a.eah, a.ebl, a.ebh] := rfl
@[simp] theorem State.loadOperands_channel (c : Byte) (a : FrameArgs) : (s.loadOperands c a).channel = a.channel := rfl
@[simp] theorem State.loadOperands_baud (c : Byte) (a : FrameArgs) : (s.loadOperands c a).baud = s.baud := rfl
@[simp] theorem State.loadOperands_idIn (c : Byte) (a : FrameArgs) : (s.loadOperands c a).idIn = s.idIn := rfl
@[simp] theorem State.loadOperands_fmt (c : Byte) (a : FrameArgs) : (s.loadOperands c a).fmt = s.fmt := rfl
@[simp] theorem State.loadOperands_hlen (c : Byte) (a : FrameArgs) : (s.loadOperands c a).hlen = s.hlen := rfl
@[simp] theorem State.loadOperands_entryCount (c : Byte) (a : FrameArgs) : (s.loadOperands c a).entryCount = s.entryCount := rfl
@[simp] theorem State.loadOperands_expectLen (c : Byte) (a : FrameArgs) : (s.loadOperands c a).expectLen = s.expectLen := rfl
@[simp] theorem State.loadOperands_txlen (c : Byte) (a : FrameArgs) : (s.loadOperands c a).txlen = s.txlen := rfl
@[simp] theorem State.loadOperands_rlen (c : Byte) (a : FrameArgs) : (s.loadOperands c a).rlen = s.rlen := rfl
@[simp] theorem State.loadOperands_payloadRetryLimit (c : Byte) (a : FrameArgs) : (s.loadOperands c a).payloadRetryLimit = s.payloadRetryLimit := rfl
@[simp] theorem State.loadOperands_st (c : Byte) (a : FrameArgs) : (s.loadOperands c a).st = s.st := rfl
@[simp] theorem State.loadOperands_busy (c : Byte) (a : FrameArgs) : (s.loadOperands c a).busy = s.busy := rfl
@[simp] theorem State.loadOperands_degraded (c : Byte) (a : FrameArgs) : (s.loadOperands c a).degraded = s.degraded := rfl
@[simp] theorem State.loadOperands_p1Valid (c : Byte) (a : FrameArgs) : (s.loadOperands c a).p1Valid = s.p1Valid := rfl
@[simp] theorem State.loadOperands_p2Valid (c : Byte) (a : FrameArgs) : (s.loadOperands c a).p2Valid = s.p2Valid := rfl
@[simp] theorem State.loadOperands_wBusyViol (c : Byte) (a : FrameArgs) : (s.loadOperands c a).wBusyViol = s.wBusyViol := rfl
@[simp] theorem State.loadOperands_wBadDigit (c : Byte) (a : FrameArgs) : (s.loadOperands c a).wBadDigit = s.wBadDigit := rfl
@[simp] theorem State.loadOperands_wTplClip (c : Byte) (a : FrameArgs) : (s.loadOperands c a).wTplClip = s.wTplClip := rfl
@[simp] theorem State.loadOperands_wTplOor (c : Byte) (a : FrameArgs) : (s.loadOperands c a).wTplOor = s.wTplOor := rfl
@[simp] theorem State.loadOperands_wPbufOvf (c : Byte) (a : FrameArgs) : (s.loadOperands c a).wPbufOvf = s.wPbufOvf := rfl
@[simp] theorem State.loadOperands_resultClass (c : Byte) (a : FrameArgs) : (s.loadOperands c a).resultClass = s.resultClass := rfl
@[simp] theorem State.loadOperands_resultCode (c : Byte) (a : FrameArgs) : (s.loadOperands c a).resultCode = s.resultCode := rfl
@[simp] theorem State.loadOperands_evt (c : Byte) (a : FrameArgs) : (s.loadOperands c a).evt = s.evt := rfl
@[simp] theorem State.loadOperands_evtEn (c : Byte) (a : FrameArgs) : (s.loadOperands c a).evtEn = s.evtEn := rfl
@[simp] theorem State.loadOperands_evtCode (c : Byte) (a : FrameArgs) : (s.loadOperands c a).evtCode = s.evtCode := rfl
@[simp] theorem State.loadOperands_errcode (c : Byte) (a : FrameArgs) : (s.loadOperands c a).errcode = s.errcode := rfl
@[simp] theorem State.loadOperands_param1 (c : Byte) (a : FrameArgs) : (s.loadOperands c a).param1 = s.param1 := rfl
@[simp] theorem State.loadOperands_param2 (c : Byte) (a : FrameArgs) : (s.loadOperands c a).param2 = s.param2 := rfl
@[simp] theorem State.loadOperands_declen (c : Byte) (a : FrameArgs) : (s.loadOperands c a).declen = s.declen := rfl
@[simp] theorem State.loadOperands_lcmd (c : Byte) (a : FrameArgs) : (s.loadOperands c a).lcmd = s.lcmd := rfl
@[simp] theorem State.loadOperands_wtimer (c : Byte) (a : FrameArgs) : (s.loadOperands c a).wtimer = s.wtimer := rfl
@[simp] theorem State.loadOperands_retry (c : Byte) (a : FrameArgs) : (s.loadOperands c a).retry = s.retry := rfl
@[simp] theorem State.loadOperands_pretry (c : Byte) (a : FrameArgs) : (s.loadOperands c a).pretry = s.pretry := rfl
@[simp] theorem State.loadOperands_idLo (c : Byte) (a : FrameArgs) : (s.loadOperands c a).idLo = s.idLo := rfl
@[simp] theorem State.loadOperands_idHi (c : Byte) (a : FrameArgs) : (s.loadOperands c a).idHi = s.idHi := rfl
@[simp] theorem State.loadOperands_nextFree (c : Byte) (a : FrameArgs) : (s.loadOperands c a).nextFree = s.nextFree := rfl
@[simp] theorem State.loadOperands_dirCount (c : Byte) (a : FrameArgs) : (s.loadOperands c a).dirCount = s.dirCount := rfl
@[simp] theorem State.loadOperands_txf (c : Byte) (a : FrameArgs) : (s.loadOperands c a).txf = s.txf := rfl
@[simp] theorem State.loadOperands_ack (c : Byte) (a : FrameArgs) : (s.loadOperands c a).ack = s.ack := rfl
@[simp] theorem State.loadOperands_pbuf (c : Byte) (a : FrameArgs) : (s.loadOperands c a).pbuf = s.pbuf := rfl
@[simp] theorem State.loadOperands_hbuf (c : Byte) (a : FrameArgs) : (s.loadOperands c a).hbuf = s.hbuf := rfl
@[simp] theorem State.loadOperands_tbuf (c : Byte) (a : FrameArgs) : (s.loadOperands c a).tbuf = s.tbuf := rfl
@[simp] theorem State.loadOperands_ibuf (c : Byte) (a : FrameArgs) : (s.loadOperands c a).ibuf = s.ibuf := rfl
@[simp] theorem State.loadOperands_dirmap (c : Byte) (a : FrameArgs) : (s.loadOperands c a).dirmap = s.dirmap := rfl
@[simp] theorem State.loadOperands_txlog (c : Byte) (a : FrameArgs) : (s.loadOperands c a).txlog = s.txlog := rfl
@[simp] theorem State.loadOperands_evlog (c : Byte) (a : FrameArgs) : (s.loadOperands c a).evlog = s.evlog := rfl
@[simp] theorem State.loadOperands_cfg (c : Byte) (a : FrameArgs) : (s.loadOperands c a).cfg = s.cfg := rfl
@[simp] theorem State.loadOperands_portlog (c : Byte) (a : FrameArgs) : (s.loadOperands c a).portlog = s.portlog := rfl
@[simp] theorem State.loadOperands_epoch (c : Byte) (a : FrameArgs) : (s.loadOperands c a).epoch = s.epoch := rfl
@[simp] theorem State.loadOperands_inbox (c : Byte) (a : FrameArgs) : (s.loadOperands c a).inbox = s.inbox := rfl

/-! ### setBuf -/

@[simp] theorem State.setBuf_x (b : Buf) (m : Memory) : (s.setBuf b m).x = s.x := by cases b <;> rfl
@[simp] theorem State.setBuf_channel (b : Buf) (m : Memory) : (s.setBuf b m).channel = s.channel := by cases b <;> rfl
@[simp] theorem State.setBuf_baud (b : Buf) (m : Memory) : (s.setBuf b m).baud = s.baud := by cases b <;> rfl
@[simp] theorem State.setBuf_idIn (b : Buf) (m : Memory) : (s.setBuf b m).idIn = s.idIn := by cases b <;> rfl
@[simp] theorem State.setBuf_fmt (b : Buf) (m : Memory) : (s.setBuf b m).fmt = s.fmt := by cases b <;> rfl
@[simp] theorem State.setBuf_hlen (b : Buf) (m : Memory) : (s.setBuf b m).hlen = s.hlen := by cases b <;> rfl
@[simp] theorem State.setBuf_entryCount (b : Buf) (m : Memory) : (s.setBuf b m).entryCount = s.entryCount := by cases b <;> rfl
@[simp] theorem State.setBuf_expectLen (b : Buf) (m : Memory) : (s.setBuf b m).expectLen = s.expectLen := by cases b <;> rfl
@[simp] theorem State.setBuf_txlen (b : Buf) (m : Memory) : (s.setBuf b m).txlen = s.txlen := by cases b <;> rfl
@[simp] theorem State.setBuf_rlen (b : Buf) (m : Memory) : (s.setBuf b m).rlen = s.rlen := by cases b <;> rfl
@[simp] theorem State.setBuf_payloadRetryLimit (b : Buf) (m : Memory) : (s.setBuf b m).payloadRetryLimit = s.payloadRetryLimit := by cases b <;> rfl
@[simp] theorem State.setBuf_st (b : Buf) (m : Memory) : (s.setBuf b m).st = s.st := by cases b <;> rfl
@[simp] theorem State.setBuf_busy (b : Buf) (m : Memory) : (s.setBuf b m).busy = s.busy := by cases b <;> rfl
@[simp] theorem State.setBuf_degraded (b : Buf) (m : Memory) : (s.setBuf b m).degraded = s.degraded := by cases b <;> rfl
@[simp] theorem State.setBuf_p1Valid (b : Buf) (m : Memory) : (s.setBuf b m).p1Valid = s.p1Valid := by cases b <;> rfl
@[simp] theorem State.setBuf_p2Valid (b : Buf) (m : Memory) : (s.setBuf b m).p2Valid = s.p2Valid := by cases b <;> rfl
@[simp] theorem State.setBuf_wBusyViol (b : Buf) (m : Memory) : (s.setBuf b m).wBusyViol = s.wBusyViol := by cases b <;> rfl
@[simp] theorem State.setBuf_wBadDigit (b : Buf) (m : Memory) : (s.setBuf b m).wBadDigit = s.wBadDigit := by cases b <;> rfl
@[simp] theorem State.setBuf_wTplClip (b : Buf) (m : Memory) : (s.setBuf b m).wTplClip = s.wTplClip := by cases b <;> rfl
@[simp] theorem State.setBuf_wTplOor (b : Buf) (m : Memory) : (s.setBuf b m).wTplOor = s.wTplOor := by cases b <;> rfl
@[simp] theorem State.setBuf_wPbufOvf (b : Buf) (m : Memory) : (s.setBuf b m).wPbufOvf = s.wPbufOvf := by cases b <;> rfl
@[simp] theorem State.setBuf_resultClass (b : Buf) (m : Memory) : (s.setBuf b m).resultClass = s.resultClass := by cases b <;> rfl
@[simp] theorem State.setBuf_resultCode (b : Buf) (m : Memory) : (s.setBuf b m).resultCode = s.resultCode := by cases b <;> rfl
@[simp] theorem State.setBuf_evt (b : Buf) (m : Memory) : (s.setBuf b m).evt = s.evt := by cases b <;> rfl
@[simp] theorem State.setBuf_evtEn (b : Buf) (m : Memory) : (s.setBuf b m).evtEn = s.evtEn := by cases b <;> rfl
@[simp] theorem State.setBuf_evtCode (b : Buf) (m : Memory) : (s.setBuf b m).evtCode = s.evtCode := by cases b <;> rfl
@[simp] theorem State.setBuf_errcode (b : Buf) (m : Memory) : (s.setBuf b m).errcode = s.errcode := by cases b <;> rfl
@[simp] theorem State.setBuf_param1 (b : Buf) (m : Memory) : (s.setBuf b m).param1 = s.param1 := by cases b <;> rfl
@[simp] theorem State.setBuf_param2 (b : Buf) (m : Memory) : (s.setBuf b m).param2 = s.param2 := by cases b <;> rfl
@[simp] theorem State.setBuf_declen (b : Buf) (m : Memory) : (s.setBuf b m).declen = s.declen := by cases b <;> rfl
@[simp] theorem State.setBuf_lcmd (b : Buf) (m : Memory) : (s.setBuf b m).lcmd = s.lcmd := by cases b <;> rfl
@[simp] theorem State.setBuf_wtimer (b : Buf) (m : Memory) : (s.setBuf b m).wtimer = s.wtimer := by cases b <;> rfl
@[simp] theorem State.setBuf_retry (b : Buf) (m : Memory) : (s.setBuf b m).retry = s.retry := by cases b <;> rfl
@[simp] theorem State.setBuf_pretry (b : Buf) (m : Memory) : (s.setBuf b m).pretry = s.pretry := by cases b <;> rfl
@[simp] theorem State.setBuf_idLo (b : Buf) (m : Memory) : (s.setBuf b m).idLo = s.idLo := by cases b <;> rfl
@[simp] theorem State.setBuf_idHi (b : Buf) (m : Memory) : (s.setBuf b m).idHi = s.idHi := by cases b <;> rfl
@[simp] theorem State.setBuf_nextFree (b : Buf) (m : Memory) : (s.setBuf b m).nextFree = s.nextFree := by cases b <;> rfl
@[simp] theorem State.setBuf_dirCount (b : Buf) (m : Memory) : (s.setBuf b m).dirCount = s.dirCount := by cases b <;> rfl
@[simp] theorem State.setBuf_dirmap (b : Buf) (m : Memory) : (s.setBuf b m).dirmap = s.dirmap := by cases b <;> rfl
@[simp] theorem State.setBuf_txlog (b : Buf) (m : Memory) : (s.setBuf b m).txlog = s.txlog := by cases b <;> rfl
@[simp] theorem State.setBuf_evlog (b : Buf) (m : Memory) : (s.setBuf b m).evlog = s.evlog := by cases b <;> rfl
@[simp] theorem State.setBuf_cfg (b : Buf) (m : Memory) : (s.setBuf b m).cfg = s.cfg := by cases b <;> rfl
@[simp] theorem State.setBuf_portlog (b : Buf) (m : Memory) : (s.setBuf b m).portlog = s.portlog := by cases b <;> rfl
@[simp] theorem State.setBuf_epoch (b : Buf) (m : Memory) : (s.setBuf b m).epoch = s.epoch := by cases b <;> rfl
@[simp] theorem State.setBuf_inbox (b : Buf) (m : Memory) : (s.setBuf b m).inbox = s.inbox := by cases b <;> rfl

/-! ### writeBytes -/

@[simp] theorem State.writeBytes_x (b : Buf) (n : Nat) (bs : List Byte) : (s.writeBytes b n bs).x = s.x := by cases b <;> rfl
@[simp] theorem State.writeBytes_channel (b : Buf) (n : Nat) (bs : List Byte) : (s.writeBytes b n bs).channel = s.channel := by cases b <;> rfl
@[simp] theorem State.writeBytes_baud (b : Buf) (n : Nat) (bs : List Byte) : (s.writeBytes b n bs).baud = s.baud := by cases b <;> rfl
@[simp] theorem State.writeBytes_idIn (b : Buf) (n : Nat) (bs : List Byte) : (s.writeBytes b n bs).idIn = s.idIn := by cases b <;> rfl
@[simp] theorem State.writeBytes_fmt (b : Buf) (n : Nat) (bs : List Byte) : (s.writeBytes b n bs).fmt = s.fmt := by cases b <;> rfl
@[simp] theorem State.writeBytes_hlen (b : Buf) (n : Nat) (bs : List Byte) : (s.writeBytes b n bs).hlen = s.hlen := by cases b <;> rfl
@[simp] theorem State.writeBytes_entryCount (b : Buf) (n : Nat) (bs : List Byte) : (s.writeBytes b n bs).entryCount = s.entryCount := by cases b <;> rfl
@[simp] theorem State.writeBytes_expectLen (b : Buf) (n : Nat) (bs : List Byte) : (s.writeBytes b n bs).expectLen = s.expectLen := by cases b <;> rfl
@[simp] theorem State.writeBytes_txlen (b : Buf) (n : Nat) (bs : List Byte) : (s.writeBytes b n bs).txlen = s.txlen := by cases b <;> rfl
@[simp] theorem State.writeBytes_rlen (b : Buf) (n : Nat) (bs : List Byte) : (s.writeBytes b n bs).rlen = s.rlen := by cases b <;> rfl
@[simp] theorem State.writeBytes_payloadRetryLimit (b : Buf) (n : Nat) (bs : List Byte) : (s.writeBytes b n bs).payloadRetryLimit = s.payloadRetryLimit := by cases b <;> rfl
@[simp] theorem State.writeBytes_st (b : Buf) (n : Nat) (bs : List Byte) : (s.writeBytes b n bs).st = s.st := by cases b <;> rfl
@[simp] theorem State.writeBytes_busy (b : Buf) (n : Nat) (bs : List Byte) : (s.writeBytes b n bs).busy = s.busy := by cases b <;> rfl
@[simp] theorem State.writeBytes_degraded (b : Buf) (n : Nat) (bs : List Byte) : (s.writeBytes b n bs).degraded = s.degraded := by cases b <;> rfl
@[simp] theorem State.writeBytes_p1Valid (b : Buf) (n : Nat) (bs : List Byte) : (s.writeBytes b n bs).p1Valid = s.p1Valid := by cases b <;> rfl
@[simp] theorem State.writeBytes_p2Valid (b : Buf) (n : Nat) (bs : List Byte) : (s.writeBytes b n bs).p2Valid = s.p2Valid := by cases b <;> rfl
@[simp] theorem State.writeBytes_wBusyViol (b : Buf) (n : Nat) (bs : List Byte) : (s.writeBytes b n bs).wBusyViol = s.wBusyViol := by cases b <;> rfl
@[simp] theorem State.writeBytes_wBadDigit (b : Buf) (n : Nat) (bs : List Byte) : (s.writeBytes b n bs).wBadDigit = s.wBadDigit := by cases b <;> rfl
@[simp] theorem State.writeBytes_wTplClip (b : Buf) (n : Nat) (bs : List Byte) : (s.writeBytes b n bs).wTplClip = s.wTplClip := by cases b <;> rfl
@[simp] theorem State.writeBytes_wTplOor (b : Buf) (n : Nat) (bs : List Byte) : (s.writeBytes b n bs).wTplOor = s.wTplOor := by cases b <;> rfl
@[simp] theorem State.writeBytes_wPbufOvf (b : Buf) (n : Nat) (bs : List Byte) : (s.writeBytes b n bs).wPbufOvf = s.wPbufOvf := by cases b <;> rfl
@[simp] theorem State.writeBytes_resultClass (b : Buf) (n : Nat) (bs : List Byte) : (s.writeBytes b n bs).resultClass = s.resultClass := by cases b <;> rfl
@[simp] theorem State.writeBytes_resultCode (b : Buf) (n : Nat) (bs : List Byte) : (s.writeBytes b n bs).resultCode = s.resultCode := by cases b <;> rfl
@[simp] theorem State.writeBytes_evt (b : Buf) (n : Nat) (bs : List Byte) : (s.writeBytes b n bs).evt = s.evt := by cases b <;> rfl
@[simp] theorem State.writeBytes_evtEn (b : Buf) (n : Nat) (bs : List Byte) : (s.writeBytes b n bs).evtEn = s.evtEn := by cases b <;> rfl
@[simp] theorem State.writeBytes_evtCode (b : Buf) (n : Nat) (bs : List Byte) : (s.writeBytes b n bs).evtCode = s.evtCode := by cases b <;> rfl
@[simp] theorem State.writeBytes_errcode (b : Buf) (n : Nat) (bs : List Byte) : (s.writeBytes b n bs).errcode = s.errcode := by cases b <;> rfl
@[simp] theorem State.writeBytes_param1 (b : Buf) (n : Nat) (bs : List Byte) : (s.writeBytes b n bs).param1 = s.param1 := by cases b <;> rfl
@[simp] theorem State.writeBytes_param2 (b : Buf) (n : Nat) (bs : List Byte) : (s.writeBytes b n bs).param2 = s.param2 := by cases b <;> rfl
@[simp] theorem State.writeBytes_declen (b : Buf) (n : Nat) (bs : List Byte) : (s.writeBytes b n bs).declen = s.declen := by cases b <;> rfl
@[simp] theorem State.writeBytes_lcmd (b : Buf) (n : Nat) (bs : List Byte) : (s.writeBytes b n bs).lcmd = s.lcmd := by cases b <;> rfl
@[simp] theorem State.writeBytes_wtimer (b : Buf) (n : Nat) (bs : List Byte) : (s.writeBytes b n bs).wtimer = s.wtimer := by cases b <;> rfl
@[simp] theorem State.writeBytes_retry (b : Buf) (n : Nat) (bs : List Byte) : (s.writeBytes b n bs).retry = s.retry := by cases b <;> rfl
@[simp] theorem State.writeBytes_pretry (b : Buf) (n : Nat) (bs : List Byte) : (s.writeBytes b n bs).pretry = s.pretry := by cases b <;> rfl
@[simp] theorem State.writeBytes_idLo (b : Buf) (n : Nat) (bs : List Byte) : (s.writeBytes b n bs).idLo = s.idLo := by cases b <;> rfl
@[simp] theorem State.writeBytes_idHi (b : Buf) (n : Nat) (bs : List Byte) : (s.writeBytes b n bs).idHi = s.idHi := by cases b <;> rfl
@[simp] theorem State.writeBytes_nextFree (b : Buf) (n : Nat) (bs : List Byte) : (s.writeBytes b n bs).nextFree = s.nextFree := by cases b <;> rfl
@[simp] theorem State.writeBytes_dirCount (b : Buf) (n : Nat) (bs : List Byte) : (s.writeBytes b n bs).dirCount = s.dirCount := by cases b <;> rfl
@[simp] theorem State.writeBytes_dirmap (b : Buf) (n : Nat) (bs : List Byte) : (s.writeBytes b n bs).dirmap = s.dirmap := by cases b <;> rfl
@[simp] theorem State.writeBytes_txlog (b : Buf) (n : Nat) (bs : List Byte) : (s.writeBytes b n bs).txlog = s.txlog := by cases b <;> rfl
@[simp] theorem State.writeBytes_evlog (b : Buf) (n : Nat) (bs : List Byte) : (s.writeBytes b n bs).evlog = s.evlog := by cases b <;> rfl
@[simp] theorem State.writeBytes_cfg (b : Buf) (n : Nat) (bs : List Byte) : (s.writeBytes b n bs).cfg = s.cfg := by cases b <;> rfl
@[simp] theorem State.writeBytes_portlog (b : Buf) (n : Nat) (bs : List Byte) : (s.writeBytes b n bs).portlog = s.portlog := by cases b <;> rfl
@[simp] theorem State.writeBytes_epoch (b : Buf) (n : Nat) (bs : List Byte) : (s.writeBytes b n bs).epoch = s.epoch := by cases b <;> rfl
@[simp] theorem State.writeBytes_inbox (b : Buf) (n : Nat) (bs : List Byte) : (s.writeBytes b n bs).inbox = s.inbox := by cases b <;> rfl

end Sys2Proof.Machine
end

