-- ==== Sys2Proof/Laws/Memory.lean ====
section
/-! SUPPORT. The laws of the buffers: a read after a write, and the canonical form kept by the one
write. -/

namespace Sys2Proof.Machine

/-! ### Lists of cells -/

@[simp] theorem Memory.lookup_nil (i : Nat) : Memory.lookup [] i = none := rfl

theorem Memory.lookup_append (m n : Memory) (i : Nat) :
    Memory.lookup (m ++ n) i = ((Memory.lookup m i).or (Memory.lookup n i)) := by
  induction m with
  | nil => rfl
  | cons c m ih =>
    obtain ⟨a, b⟩ := c
    simp only [List.cons_append, Memory.lookup]
    split <;> simp_all

theorem Memory.lookup_filter (p : Nat → Bool) (m : Memory) (i : Nat) :
    Memory.lookup (m.filter fun c => p c.1) i = if p i then Memory.lookup m i else none := by
  induction m with
  | nil => simp
  | cons c m ih =>
    obtain ⟨a, b⟩ := c
    by_cases h : a = i
    · subst h; by_cases hp : p a <;> simp_all [Memory.lookup]
    · by_cases hp : p a <;> simp_all [Memory.lookup]

theorem lookup_cellsFrom (bs : List Byte) (base i : Nat) :
    Memory.lookup (cellsFrom base bs) i = if base ≤ i then bs[i - base]? else none := by
  induction bs generalizing base with
  | nil => simp [cellsFrom]
  | cons b bs ih =>
    simp only [cellsFrom, Memory.lookup, ih]
    by_cases h : base = i
    · subst h; simp
    · by_cases h2 : base ≤ i
      · have h3 : base + 1 ≤ i := by omega
        have h4 : i - base = (i - (base + 1)) + 1 := by omega
        simp [h, h2, h3, h4]
      · have h3 : ¬ base + 1 ≤ i := by omega
        simp [h, h2, h3]

/-- A read after a block write: inside the block the byte written, outside what was there. -/
theorem Memory.lookup_writeBlock (m : Memory) (base : Nat) (bs : List Byte) (i : Nat) :
    (m.writeBlock base bs).lookup i =
      if base ≤ i ∧ i < base + bs.length then bs[i - base]? else m.lookup i := by
  have h1 := Memory.lookup_filter (fun a => decide (a < base)) m i
  have h2 := Memory.lookup_filter (fun a => decide (base + bs.length ≤ a)) m i
  unfold Memory.writeBlock
  rw [Memory.lookup_append, Memory.lookup_append, h1, h2, lookup_cellsFrom]
  by_cases hlt : i < base
  · have : ¬ base ≤ i := by omega
    have : ¬ base + bs.length ≤ i := by omega
    simp [*]
  · by_cases hin : i < base + bs.length
    · have hb : base ≤ i := by omega
      have hi : i - base < bs.length := by omega
      simp [hlt, hin, hb, hi]
    · have hb : base ≤ i := by omega
      have hi : bs.length ≤ i - base := by omega
      have hge : base + bs.length ≤ i := by omega
      simp [hlt, hin, hb, hi, hge]

theorem mem_cellsFrom {bs : List Byte} {base : Nat} {c : Host.Cell} (h : c ∈ cellsFrom base bs) :
    base ≤ c.1 ∧ c.1 < base + bs.length := by
  induction bs generalizing base with
  | nil => simp [cellsFrom] at h
  | cons b bs ih =>
    simp only [cellsFrom, List.mem_cons] at h
    rcases h with rfl | h
    · simp
    · have := ih h; simp only [List.length_cons]; omega

theorem wf_cellsFrom (bs : List Byte) (base : Nat) : (cellsFrom base bs).wf := by
  induction bs generalizing base with
  | nil => simp [cellsFrom]
  | cons b bs ih =>
    refine List.Pairwise.cons ?_ (ih (base + 1))
    intro c hc
    have := mem_cellsFrom hc
    simp only; omega

/-- Every write keeps the canonical form. -/
theorem Memory.wf_writeBlock {m : Memory} (h : m.wf) (base : Nat) (bs : List Byte) :
    (m.writeBlock base bs).wf := by
  refine List.pairwise_append.2 ⟨h.filter _, List.pairwise_append.2 ⟨wf_cellsFrom bs base, h.filter _, ?_⟩, ?_⟩
  · intro a ha b hb
    have := mem_cellsFrom ha
    simp only [List.mem_filter, decide_eq_true_eq] at hb
    omega
  · intro a ha b hb
    simp only [List.mem_filter, decide_eq_true_eq] at ha
    simp only [List.mem_append, List.mem_filter, decide_eq_true_eq] at hb
    rcases hb with hb | hb
    · have := mem_cellsFrom hb; omega
    · omega

/-- A write inside the first `n` indices lists none beyond them. -/
theorem Memory.within_writeBlock {m : Memory} {n : Nat} (h : m.within n) {base : Nat} {bs : List Byte}
    (hb : base + bs.length ≤ n) : (m.writeBlock base bs).within n := by
  intro c hc
  simp only [Memory.writeBlock, List.mem_append, List.mem_filter] at hc
  rcases hc with hc | hc | hc
  · exact h c hc.1
  · have := mem_cellsFrom hc; omega
  · exact h c hc.1

/-! ### Buffers of the state -/

@[simp] theorem State.bufOf_setBuf_same (s : State) (b : Buf) (m : Memory) : (s.setBuf b m).bufOf b = m := by
  cases b <;> rfl

theorem State.bufOf_setBuf_of_ne (s : State) {b c : Buf} (m : Memory) (h : c ≠ b) :
    (s.setBuf b m).bufOf c = s.bufOf c := by
  cases b <;> cases c <;> first | rfl | exact absurd rfl h

/-- Writing a buffer back as it was undoes a write. -/
theorem State.setBuf_setBuf_self (s : State) (b : Buf) (m : Memory) :
    (s.setBuf b m).setBuf b (s.bufOf b) = s := by
  cases b <;> rfl

@[simp] theorem State.bufOf_writeBytes_same (s : State) (b : Buf) (n : Nat) (bs : List Byte) :
    (s.writeBytes b n bs).bufOf b = (s.bufOf b).writeBlock n bs := by
  simp [State.writeBytes]

theorem State.bufOf_writeBytes_of_ne (s : State) {b c : Buf} (n : Nat) (bs : List Byte) (h : c ≠ b) :
    (s.writeBytes b n bs).bufOf c = s.bufOf c :=
  s.bufOf_setBuf_of_ne _ h

/-- What a buffer element reads as depends on the buffer and the reset count alone. -/
theorem State.byteAt_congr {s t : State} {b : Buf} (hb : t.bufOf b = s.bufOf b) (he : t.epoch = s.epoch)
    (i : Nat) : t.byteAt b i = s.byteAt b i := by
  simp [State.byteAt, hb, he]

theorem State.bytesFrom_congr {s t : State} {b : Buf} (hb : t.bufOf b = s.bufOf b)
    (he : t.epoch = s.epoch) (i n : Nat) : t.bytesFrom b i n = s.bytesFrom b i n := by
  simp [State.bytesFrom, State.byteAt_congr hb he]

theorem State.byteAt_writeBytes_same (s : State) (b : Buf) (n : Nat) (bs : List Byte) (i : Nat) :
    (s.writeBytes b n bs).byteAt b i =
      if n ≤ i ∧ i < n + bs.length then bs.getD (i - n) 0 else s.byteAt b i := by
  simp only [State.byteAt, State.bufOf_writeBytes_same, Memory.lookup_writeBlock, State.writeBytes_epoch]
  split
  · rename_i h
    have : i - n < bs.length := by omega
    simp [this, List.getD]
  · rfl

theorem State.byteAt_writeBytes_of_ne (s : State) {b c : Buf} (n : Nat) (bs : List Byte) (h : c ≠ b)
    (i : Nat) : (s.writeBytes b n bs).byteAt c i = s.byteAt c i :=
  State.byteAt_congr (s.bufOf_writeBytes_of_ne n bs h) (by simp) i

@[simp] theorem State.length_bytesFrom (s : State) (b : Buf) (i n : Nat) : (s.bytesFrom b i n).length = n := by
  simp [State.bytesFrom]

theorem State.getElem?_bytesFrom (s : State) (b : Buf) (i n k : Nat) (h : k < n) :
    (s.bytesFrom b i n)[k]? = some (s.byteAt b (i + k)) := by
  simp [State.bytesFrom, h]

/-- Reading back a block just written. -/
theorem State.bytesFrom_writeBytes (s : State) (b : Buf) (n : Nat) (bs : List Byte) :
    (s.writeBytes b n bs).bytesFrom b n bs.length = bs := by
  apply List.ext_getElem?
  intro k
  by_cases h : k < bs.length
  · rw [State.getElem?_bytesFrom _ _ _ _ _ h, State.byteAt_writeBytes_same]
    simp [h, List.getD]
  · simp at h
    rw [List.getElem?_eq_none (by simpa using h), List.getElem?_eq_none h]

/-! ### The canonical form -/

theorem State.wf_setBuf {s : State} (h : ∀ c, (s.bufOf c).wf) {b : Buf} {m : Memory} (hm : m.wf) (c : Buf) :
    ((s.setBuf b m).bufOf c).wf := by
  by_cases hc : c = b
  · subst hc; simpa using hm
  · rw [s.bufOf_setBuf_of_ne m hc]; exact h c

/-- Every buffer write keeps every buffer canonical. -/
theorem State.wf_writeBytes {s : State} (h : ∀ c, (s.bufOf c).wf) (b : Buf) (n : Nat) (bs : List Byte)
    (c : Buf) : ((s.writeBytes b n bs).bufOf c).wf :=
  State.wf_setBuf h (Memory.wf_writeBlock (h b) n bs) c

/-- A write inside a buffer keeps every buffer inside its size. -/
theorem State.within_writeBytes {s : State} {p : Params} (h : ∀ c, (s.bufOf c).within (c.size p)) {b : Buf}
    {n : Nat} {bs : List Byte} (hb : n + bs.length ≤ b.size p) (c : Buf) :
    ((s.writeBytes b n bs).bufOf c).within (c.size p) := by
  by_cases hc : c = b
  · subst hc; rw [State.bufOf_writeBytes_same]; exact Memory.within_writeBlock (h c) hb
  · rw [s.bufOf_writeBytes_of_ne n bs hc]; exact h c

/-- The buffers are canonical at reset: nothing is listed. -/
theorem State.wf_reset (b : Buf) : (State.reset.bufOf b).wf := by cases b <;> exact List.Pairwise.nil

end Sys2Proof.Machine
end

