-- ==== Sys2Proof/Laws/Ops.lean ====
section
/-! SUPPORT. One lemma for each shared operation that says once everything it does: the state it answers
as one record update of the state it was given. -/

namespace Sys2Proof.Machine

/-- The end of a performed pure operation. -/
theorem State.complete_eq (s : State) : s.complete =
    { s with resultClass := .ok, resultCode := 0, evt := s.evt ||| 1, evlog := s.evlog ++ [(.done, none)] } := by
  simp [State.complete, State.emit, State.setResult, EvKind.mask, EvKind.pulses, EvKind.evtCode]

/-- The refusal sequence (R238): RESULT, the DONE event, nothing else. -/
theorem State.refuse_eq (s : State) (c : Byte) : s.refuse c =
    { s with resultClass := .illegalRequest, resultCode := c, evt := s.evt ||| 1,
             evlog := s.evlog ++ [(.done, none)] } := by
  simp [State.refuse, State.emit, State.setResult, EvKind.mask, EvKind.pulses, EvKind.evtCode]

/-- The end of a cycle (R198). -/
theorem State.endCycle_eq (s : State) (q : SeqState) (r : ResultClass) (c : Byte) : s.endCycle q r c =
    { s with resultClass := r, resultCode := c, st := q, busy := false, evt := s.evt ||| 1,
             evlog := s.evlog ++ [(.done, none)], portlog := s.portlog ++ [.tpClose] } := by
  simp [State.endCycle, State.emit, State.pulse, State.setResult, EvKind.mask, EvKind.pulses, EvKind.evtCode]

/-- The normal end of a cycle (R197). -/
theorem State.normalEnd_eq (s : State) : s.normalEnd =
    { s with resultClass := .ok, resultCode := 0, st := .idle, busy := false, evt := s.evt ||| 1,
             evlog := s.evlog ++ [(.done, none)], portlog := s.portlog ++ [.tpClose] } :=
  s.endCycle_eq _ _ _

/-- The device-error end of a cycle (R196). -/
theorem State.deviceErrorEnd_eq (s : State) : s.deviceErrorEnd =
    { s with
      resultClass := .deviceError, resultCode := s.errcode, st := .idle, busy := false
      evt := (s.evt ||| 2) ||| 1, evtCode := s.errcode
      evlog := s.evlog ++ [(.deverr, some s.errcode), (.done, none)]
      portlog := s.portlog ++ [.evtDeverr s.errcode, .tpClose] } := by
  simp [State.deviceErrorEnd, State.endCycle_eq, State.emit, EvKind.mask, EvKind.pulses, EvKind.evtCode]

/-- The fail sequence for a transport failure (R237). -/
theorem State.raiseFault_transport (s : State) (c : ResultClass) (h : c.degrades = true)
    (h' : c.timesOut = false) : s.raiseFault c =
    { s with
      degraded := true, resultClass := c, resultCode := 0, st := .failed, busy := false
      evt := s.evt ||| 1, evlog := s.evlog ++ [(.done, none)], portlog := s.portlog ++ [.tpClose] } := by
  simp [State.raiseFault, State.markFault, State.endCycle_eq, h, h']

/-- The fail sequence for a timeout (R237). -/
theorem State.raiseFault_timeout (s : State) (c : ResultClass) (h : c.degrades = false)
    (h' : c.timesOut = true) : s.raiseFault c =
    { s with
      resultClass := c, resultCode := 0, st := .failed, busy := false
      evt := (s.evt ||| 4) ||| 1, evlog := s.evlog ++ [(.timeout, some 0), (.done, none)]
      portlog := s.portlog ++ [.evtTimeout, .tpClose] } := by
  simp [State.raiseFault, State.markFault, State.endCycle_eq, h, h', State.emit, EvKind.mask,
    EvKind.pulses, EvKind.evtCode]

/-- The gate while idle: the operation is performed. -/
theorem State.whenIdle_of_idle {s : State} (h : s.busy = false) (act : State → State) :
    s.whenIdle act = act s := by
  simp [State.whenIdle, h]

/-- The gate while busy: only W_BUSYVIOL changes. -/
theorem State.whenIdle_of_busy {s : State} (h : s.busy = true) (act : State → State) :
    s.whenIdle act = { s with wBusyViol := true } := by
  simp [State.whenIdle, h, State.busyViolation]

/-- Latching the frame: TXF alone is written. -/
theorem State.latchFrame_eq (s : State) :
    s.latchFrame = { s with txf := s.txf.writeBlock 0 s.frame } := rfl

/-- An accepted RUN (R190, R130). -/
theorem State.runAccept_eq (s : State) : s.runAccept =
    { s with
      txf := s.txf.writeBlock 0 s.frame
      busy := true, lcmd := s.x[0], rlen := 0, retry := 0, pretry := 0, wtimer := 0
      errcode := 0, param1 := 0, param2 := 0, p1Valid := false, p2Valid := false, declen := 0
      resultClass := .ok, resultCode := 0, degraded := false, st := .configuring
      portlog := s.portlog ++ [.tpOpenReq s.baud ⟨8, false, 1, false⟩, .tpClearError] } := by
  simp [State.runAccept, State.configure, State.latchFrame_eq, State.pulse, lineSettings]

/-- RUN, when none of the refusal conditions holds. -/
theorem State.runOp_of_accepted {s : State} (h : s.runRefusal = none) : s.runOp = s.runAccept := by
  simp [State.runOp, h]

/-- RUN, when a refusal condition holds. -/
theorem State.runOp_of_refused {s : State} {c : Byte} (h : s.runRefusal = some c) : s.runOp = s.refuse c := by
  simp [State.runOp, h]

/-- The refusal conditions of RUN hold not at all exactly when its three tests pass (R191). -/
theorem State.runRefusal_eq_none {s : State} : s.runRefusal = none ↔
    Command.ofByte s.x[0] ≠ none ∧ (s.x[0] = 0x71 → s.txlen.toNat ≤ 1616) ∧
      (s.x[0] = 0x43 → s.expectLen.toNat ≤ s.cfg.pbufCap) := by
  unfold State.runRefusal
  split
  · simp_all
  · split
    · rename_i h
      simp only [reduceCtorEq, false_iff, not_and]
      intro _ h2
      have := h2 h.1
      omega
    · split
      · rename_i h
        simp only [reduceCtorEq, false_iff, not_and]
        intro _ _ h3
        have := h3 h.1
        omega
      · simp_all

/-- Every command byte of the table selects its command (R82). -/
@[simp] theorem Command.ofByte_byte (c : Command) : Command.ofByte c.byte = some c := by
  cases c <;> rfl

/-- A byte that selects a command is that command's byte. -/
theorem Command.byte_of_ofByte {b : Byte} {c : Command} (h : Command.ofByte b = some c) : c.byte = b := by
  unfold Command.ofByte at h
  repeat' split at h
  all_goals first | (cases h; simp_all [Command.byte]) | cases h

/-- Issuing a command while idle is RUN on the loaded operands. -/
theorem State.issue_of_idle {s : State} (h : s.busy = false) (cmd : Byte) (a : FrameArgs) :
    s.issue cmd a = (s.loadOperands cmd a).runOp := by
  simp [State.issue, State.whenIdle, h]

/-- The frame of loaded operands is the frame of the command and its operands. -/
@[simp] theorem State.frame_loadOperands (s : State) (cmd : Byte) (a : FrameArgs) :
    (s.loadOperands cmd a).frame = frameBytes cmd a := rfl

/-- A frame has twelve bytes. -/
@[simp] theorem length_frameBytes (cmd : Byte) (a : FrameArgs) : (frameBytes cmd a).length = 12 := rfl

/-- A frame is lawful (R102). -/
@[simp] theorem frameLawful_frameBytes (cmd : Byte) (a : FrameArgs) : frameLawful (frameBytes cmd a) = true := by
  simp [frameLawful, reservedByteOk, checksumOk, frameBytes, FrameArgs.params]

/-- Storing one byte changes at most one element of ACK or PBUF, RLEN and W_PBUF_OVF (R139). -/
theorem State.storeByte_cases (s : State) (b : Byte) :
    (s.rlen.toNat < 12 ∧
      s.storeByte b = { s with ack := s.ack.writeBlock s.rlen.toNat [b], rlen := satSucc s.rlen }) ∨
    (12 ≤ s.rlen.toNat ∧ s.rlen.toNat - 12 < s.cfg.pbufCap ∧
      s.storeByte b = { s with pbuf := s.pbuf.writeBlock (s.rlen.toNat - 12) [b], rlen := satSucc s.rlen }) ∨
    (12 ≤ s.rlen.toNat ∧ s.cfg.pbufCap ≤ s.rlen.toNat - 12 ∧
      s.storeByte b = { s with wPbufOvf := true, rlen := satSucc s.rlen }) := by
  unfold State.storeByte
  by_cases h : s.rlen.toNat < 12
  · left; simp [h, State.writeBytes, State.setBuf, State.bufOf]
  · right
    by_cases h2 : s.rlen.toNat - 12 < s.cfg.pbufCap
    · left; simp [h, h2, State.writeBytes, State.setBuf, State.bufOf]; omega
    · right; simp [h, h2]; omega

theorem satSucc_toNat (n : BitVec 32) : (satSucc n).toNat = min (n.toNat + 1) 4294967295 := by
  simp only [satSucc, BitVec.toNat_ofNat]
  apply Nat.mod_eq_of_lt
  omega

/-! ### The Record Codec -/

/-- Copying one image row: IBUF alone is written. -/
theorem State.flipRow_eq (s : State) (i : Nat) : s.flipRow i =
    { s with ibuf := s.ibuf.writeBlock (132 * (149 - i)) (s.bytesFrom .pbuf (130 * i) 130) } := by
  simp only [State.flipRow, State.writeBytes, State.setBuf, State.bufOf]

/-- Copying any rows: IBUF alone is written. -/
theorem State.foldl_flipRow_eq (l : List Nat) (s : State) :
    l.foldl State.flipRow s = { s with ibuf := (l.foldl State.flipRow s).ibuf } := by
  induction l generalizing s with
  | nil => rfl
  | cons i l ih =>
    simp only [List.foldl_cons]
    rw [ih, State.flipRow_eq]

/-- An element of IBUF after one row is copied. -/
theorem State.byteAt_flipRow (s : State) (i k : Nat) : (s.flipRow i).byteAt .ibuf k =
    if 132 * (149 - i) ≤ k ∧ k < 132 * (149 - i) + 130
    then s.byteAt .pbuf (130 * i + (k - 132 * (149 - i))) else s.byteAt .ibuf k := by
  rw [State.flipRow, State.byteAt_writeBytes_same]
  simp only [State.length_bytesFrom, Config.halfOutW, Config.halfInW]
  split
  · simp only [List.getD_eq_getElem?_getD]
    rw [State.getElem?_bytesFrom _ _ _ _ _ (by omega)]; rfl
  · rfl

/-- Writing a record (R167). -/
theorem State.writeRecord_eq (s : State) (rec : List Byte) (c : TemplateCopy) : s.writeRecord rec c =
    { s with
      tbuf := s.tbuf.writeBlock 0 rec, txlen := BitVec.ofNat 16 rec.length
      wTplClip := s.wTplClip || c.clip, wTplOor := s.wTplOor || c.oor
      resultClass := .ok, resultCode := 0, evt := s.evt ||| 1, evlog := s.evlog ++ [(.done, none)] } := by
  simp [State.writeRecord, State.complete_eq, State.noteTemplate, State.writeBytes, State.setBuf, State.bufOf]

/-- The bytes of TBUF after a record is written. -/
theorem State.byteAt_writeRecord (s : State) (rec : List Byte) (c : TemplateCopy) (i : Nat) :
    (s.writeRecord rec c).byteAt .tbuf i = if i < rec.length then rec.getD i 0 else s.byteAt .tbuf i := by
  rw [State.writeRecord_eq]
  have h := s.byteAt_writeBytes_same .tbuf 0 rec i
  simp only [Nat.zero_le, Nat.zero_add, true_and, Nat.sub_zero] at h
  exact h

theorem length_slotBytes {bs : List Byte} (h : bs.length ≤ Config.slot) :
    (slotBytes bs).length = Config.slot := by
  simp only [slotBytes, List.length_append, List.length_replicate]; omega

/-- A slot holds the copied bytes and then zeros. -/
theorem getD_slotBytes (bs : List Byte) (j : Nat) : (slotBytes bs).getD j 0 = bs.getD j 0 := by
  unfold slotBytes
  simp only [List.getD_eq_getElem?_getD]
  by_cases hl : j < bs.length
  · rw [List.getElem?_append_left hl]
  · rw [List.getElem?_append_right (by omega), List.getElem?_replicate,
      List.getElem?_eq_none (l := bs) (by omega)]
    split <;> rfl

/-- Copies never exceed a slot (R171). -/
theorem State.copyA_fits (s : State) : s.copyA.t1.length ≤ Config.slot ∧ s.copyA.t2.length ≤ Config.slot := by
  unfold State.copyA
  simp only
  split <;> simp [State.hashBytes, Config.slot]

theorem State.copyB_fits (s : State) : s.copyB.t1.length ≤ Config.slot := by
  simp [State.copyB, State.hashBytes, Config.slot]

/-- The Format A record has 1616 bytes. -/
theorem State.length_recordA (s : State) (id : Nat) : (recordA id s.copyA).length = Config.recA := by
  simp [recordA, recordHead, recordTail, length_slotBytes s.copyA_fits.1, length_slotBytes s.copyA_fits.2,
    Config.recTail, Config.slot, Config.recA]

/-- The Format B record has 816 bytes. -/
theorem State.length_recordB (s : State) (id : Nat) : (recordB id s.copyB).length = Config.recB := by
  simp [recordB, recordHead, recordTail, length_slotBytes s.copyB_fits, Config.recTail, Config.slot, Config.recB]

/-- Ending a pure operation leaves every buffer as it is. -/
@[simp] theorem State.byteAt_complete (s : State) (b : Buf) (i : Nat) : s.complete.byteAt b i = s.byteAt b i := by
  rw [State.complete_eq]; rfl

/-- The value of a packed-decimal pair has at most four digits (R112). -/
theorem pairval_le (lo hi : Byte) : (pairval lo hi).1 ≤ 9999 := by
  unfold pairval; split <;> simp; omega

theorem mem_insertId (v i : Nat) (l : List Nat) : i ∈ insertId v l ↔ i = v ∨ i ∈ l := by
  induction l with
  | nil => simp [insertId]
  | cons a l ih =>
    unfold insertId
    split
    · simp
    · split
      · subst_vars; simp
      · simp [ih]; tauto

/-! ### The Response Decoder and the storing of a response -/

/-- The ack decode step: the registers it writes and no other (R110, R114). -/
theorem State.ackDecode_eq (s : State) (c : Byte) : s.ackDecode c =
    { s with
      errcode := s.byteAt .ack 2
      param1 := BitVec.ofNat 14 s.ackPair1.1, p1Valid := s.ackPair1.2
      param2 := BitVec.ofNat 14 s.ackPair2.1, p2Valid := s.ackPair2.2
      declen := BitVec.ofNat 32
        (declaredLength c (s.byteAt .ack 2) s.ackPair1.1 s.rlen.toNat s.expectLen.toNat)
      wBadDigit := s.wBadDigit || !(s.ackPair1.2 && s.ackPair2.2) } := rfl

/-- Storing one byte leaves everything but ACK, PBUF, RLEN and W_PBUF_OVF. -/
theorem State.storeByte_frame (s : State) (b : Byte) : s.storeByte b =
    { s with
      ack := (s.storeByte b).ack, pbuf := (s.storeByte b).pbuf, rlen := satSucc s.rlen
      wPbufOvf := (s.storeByte b).wPbufOvf } := by
  rcases s.storeByte_cases b with ⟨_, e⟩ | ⟨_, _, e⟩ | ⟨_, _, e⟩ <;> rw [e]

theorem State.foldl_storeByte_frame (bs : List Byte) (s : State) : bs.foldl State.storeByte s =
    { s with
      ack := (bs.foldl State.storeByte s).ack, pbuf := (bs.foldl State.storeByte s).pbuf
      rlen := (bs.foldl State.storeByte s).rlen, wPbufOvf := (bs.foldl State.storeByte s).wPbufOvf } := by
  induction bs generalizing s with
  | nil => rfl
  | cons b bs ih =>
    simp only [List.foldl_cons]
    rw [ih, State.storeByte_frame]

/-- Storing a chunk leaves everything but ACK, PBUF, RLEN, W_PBUF_OVF and WTIMER. -/
theorem State.store_frame (s : State) (bs : List Byte) : s.store bs =
    { s with
      ack := (s.store bs).ack, pbuf := (s.store bs).pbuf, rlen := (s.store bs).rlen
      wPbufOvf := (s.store bs).wPbufOvf, wtimer := 0 } := by
  have h := State.foldl_storeByte_frame bs s
  unfold State.store
  rw [h]

/-! ### Ticks and runs -/

theorem State.onTick_of_sending {s : State} (h : s.st = .sending) : s.onTick = s.onTickSending := by
  unfold State.onTick; rw [h]

theorem State.onTick_of_awaitingAck {s : State} (h : s.st = .awaitingAck) : s.onTick = s.onTickAck := by
  unfold State.onTick; rw [h]

theorem State.onTick_of_awaitingPayload {s : State} (h : s.st = .awaitingPayload) :
    s.onTick = s.onTickPayload := by
  unfold State.onTick; rw [h]

/-- Where no wait is running a tick changes nothing (R132, R147). -/
theorem State.onTick_of_noWait {s : State} (h : s.st = .idle ∨ s.st = .failed ∨ s.st = .configuring) :
    s.onTick = s := by
  unfold State.onTick
  rcases h with h | h | h <;> rw [h]

/-- One step of a run. -/
theorem runFor_succ (n : Nat) {s t : State} (h : step s = .next t) : runFor (n + 1) s = runFor n t := by
  simp only [runFor, Host.Core.run]
  rw [show Sys2Proof.core.step s = .next t from h]

end Sys2Proof.Machine
end

