-- ==== Sys2Proof/Laws/PerInstr.lean ====
section
/-! SUPPORT. Statements made per instruction, one lemma per constructor of Instr. -/

namespace Sys2Proof.Laws.EncodeLawful

/-- R70, R84, R90, R102: the encoding of an instruction passes every check made on an instruction word: a
command frame is lawful and carries its own command byte; a host operation is a two-byte CTRL write with
START set and an assigned OP. -/
def Statement (i : Instr) : Prop :=
  wordLengthOk (encode i) = true ∧
    match i with
    | .baud _ | .status _ | .enrollStart _ | .enrollFinish _ | .delete _ | .verify _ | .identify _
    | .getImage _ | .putTemplate _ | .getTemplate _ | .list _ =>
      frameLawful (encode i) = true ∧ Command.ofByte ((encode i).getD 1 0) ≠ none
    | .build | .run | .id2b | .decack | .enctpl | .decdir | .nextfree | .flipimg =>
      startBitOk (encode i) = true ∧ opAssigned (encode i) = true

theorem baud (a : FrameArgs) : Statement (.baud a) :=
  ⟨rfl, Machine.frameLawful_frameBytes 0x21 a, by simp [encode, frameBytes, Command.ofByte]⟩
theorem status (a : FrameArgs) : Statement (.status a) :=
  ⟨rfl, Machine.frameLawful_frameBytes 0x30 a, by simp [encode, frameBytes, Command.ofByte]⟩
theorem enrollStart (a : FrameArgs) : Statement (.enrollStart a) :=
  ⟨rfl, Machine.frameLawful_frameBytes 0x50 a, by simp [encode, frameBytes, Command.ofByte]⟩
theorem enrollFinish (a : FrameArgs) : Statement (.enrollFinish a) :=
  ⟨rfl, Machine.frameLawful_frameBytes 0x51 a, by simp [encode, frameBytes, Command.ofByte]⟩
theorem delete (a : FrameArgs) : Statement (.delete a) :=
  ⟨rfl, Machine.frameLawful_frameBytes 0x54 a, by simp [encode, frameBytes, Command.ofByte]⟩
theorem verify (a : FrameArgs) : Statement (.verify a) :=
  ⟨rfl, Machine.frameLawful_frameBytes 0x55 a, by simp [encode, frameBytes, Command.ofByte]⟩
theorem identify (a : FrameArgs) : Statement (.identify a) :=
  ⟨rfl, Machine.frameLawful_frameBytes 0x56 a, by simp [encode, frameBytes, Command.ofByte]⟩
theorem getImage (a : FrameArgs) : Statement (.getImage a) :=
  ⟨rfl, Machine.frameLawful_frameBytes 0x43 a, by simp [encode, frameBytes, Command.ofByte]⟩
theorem putTemplate (a : FrameArgs) : Statement (.putTemplate a) :=
  ⟨rfl, Machine.frameLawful_frameBytes 0x71 a, by simp [encode, frameBytes, Command.ofByte]⟩
theorem getTemplate (a : FrameArgs) : Statement (.getTemplate a) :=
  ⟨rfl, Machine.frameLawful_frameBytes 0x73 a, by simp [encode, frameBytes, Command.ofByte]⟩
theorem list (a : FrameArgs) : Statement (.list a) :=
  ⟨rfl, Machine.frameLawful_frameBytes 0x7D a, by simp [encode, frameBytes, Command.ofByte]⟩
theorem build : Statement .build := ⟨rfl, rfl, rfl⟩
theorem run : Statement .run := ⟨rfl, rfl, rfl⟩
theorem id2b : Statement .id2b := ⟨rfl, rfl, rfl⟩
theorem decack : Statement .decack := ⟨rfl, rfl, rfl⟩
theorem enctpl : Statement .enctpl := ⟨rfl, rfl, rfl⟩
theorem decdir : Statement .decdir := ⟨rfl, rfl, rfl⟩
theorem nextfree : Statement .nextfree := ⟨rfl, rfl, rfl⟩
theorem flipimg : Statement .flipimg := ⟨rfl, rfl, rfl⟩

end Sys2Proof.Laws.EncodeLawful
end

