-- ==== Sys2Proof/Laws/Step.lean ====
section
/-! SUPPORT. What one step can do, said once: a step that answers a next state takes the next pending event
and is one of the reactions listed here, each with the guard under which it happens. -/

namespace Sys2Proof.Machine

/-- The operands a start of RUN finds: those of the state, or those an issued command has just written. -/
inductive Loaded (s : State) : State → Prop
  | asIs : Loaded s s
  | issued (cmd : Byte) (a : FrameArgs) : Loaded s (s.loadOperands cmd a)

/-- Everything one event can do to a state. -/
inductive Reaction (s : State) : EnvEvent → State → Prop
  /-- An access without effect: a read-only or missing register or element. -/
  | ignored (e : EnvEvent) (h : e ≠ .reset) : Reaction s e s
  /-- A write or a start while BUSY = 1. -/
  | flagged (e : EnvEvent) (h : e ≠ .reset) (hb : s.busy = true) : Reaction s e { s with wBusyViol := true }
  /-- A request refused. -/
  | refused (e : EnvEvent) (h : e ≠ .reset) (hb : s.busy = false) (v : State) (hv : Loaded s v) (c : Byte) :
      Reaction s e (v.refuse c)
  /-- RUN accepted. -/
  | accepted (e : EnvEvent) (h : e ≠ .reset) (hb : s.busy = false) (v : State) (hv : Loaded s v)
      (hr : v.runRefusal = none) : Reaction s e v.runAccept
  /-- BUILD. -/
  | build (e : EnvEvent) (h : e ≠ .reset) (hb : s.busy = false) : Reaction s e s.latchFrame.complete
  /-- ID2B performed. -/
  | id2b (e : EnvEvent) (h : e ≠ .reset) (hb : s.busy = false) :
      Reaction s e ({ s with idLo := id2bLow s.idIn.toNat, idHi := id2bHigh s.idIn.toNat } : State).complete
  /-- DECACK. -/
  | decack (e : EnvEvent) (h : e ≠ .reset) (hb : s.busy = false) : Reaction s e (s.ackDecode s.x[0]).complete
  /-- ENCTPL performed: the record fits TBUF. -/
  | enctpl (e : EnvEvent) (h : e ≠ .reset) (hb : s.busy = false) (rec : List Byte) (c : TemplateCopy)
      (hl : rec.length ≤ Config.recA) : Reaction s e (s.writeRecord rec c)
  /-- DECDIR performed. -/
  | decdir (e : EnvEvent) (h : e ≠ .reset) (hb : s.busy = false) (bad : Bool) :
      Reaction s e (({ s with
        dirmap := some s.decodedIds, dirCount := BitVec.ofNat 14 s.decodedIds.length } : State).noteBadDigit bad).complete
  /-- NEXTFREE. -/
  | nextfree (e : EnvEvent) (h : e ≠ .reset) (hb : s.busy = false) :
      Reaction s e ({ s with nextFree := BitVec.ofNat 14 (firstFree s.dirBit 1 Config.idBound) } : State).complete
  /-- FLIPIMG performed. -/
  | flipimg (e : EnvEvent) (h : e ≠ .reset) (hb : s.busy = false) (rows : List Nat) (m : Memory)
      (hm : m = (rows.foldl State.flipRow s).ibuf) : Reaction s e ({ s with ibuf := m } : State).complete
  /-- A register write that reaches its register. -/
  | regWrite (r : HostReg) (n : Nat) (v : BusWord) (hn : hostReg n = some r)
      (hb : r.openWhileBusy = true ∨ s.busy = false) : Reaction s (.hostWrite n v) (s.regStore r v)
  /-- A buffer write that reaches its element. -/
  | bufWrite (b : Buf) (i : Nat) (v : Byte) (hi : i < b.size s.cfg) (hw : b.hostWritable = true)
      (hb : s.busy = false) : Reaction s (.hostBufWrite b.space i v) (s.writeBytes b i [v])
  /-- A host read. -/
  | read (e : EnvEvent) (h : e ≠ .reset) (v : BusWord) : Reaction s e (s.pulse (.readData v))
  /-- `TpOpenOk` in Configuring. -/
  | openOk (hs : s.st = .configuring) : Reaction s .tpOpenOk s.onTpOpenOk
  /-- `TpOpenFail` in Configuring. -/
  | openFail (hs : s.st = .configuring) : Reaction s .tpOpenFail (s.raiseFault .transportOpenFailed)
  /-- `TxWritten` in Sending, command 0x21. -/
  | writtenBaud (hs : s.st = .sending) (hc : s.lcmd = 0x21) : Reaction s .txWritten s.normalEnd
  /-- `TxWritten` in Sending, every other command. -/
  | written (hs : s.st = .sending) (hc : s.lcmd ≠ 0x21) :
      Reaction s .txWritten { s with wtimer := 0, retry := 0, st := .awaitingAck }
  /-- A chunk that leaves its wait going. -/
  | chunkAck (b : Byte) (bs : List Byte) (hs : s.st = .awaitingAck) (hr : (s.store (b :: bs)).rlen.toNat < 12) :
      Reaction s (.rxChunk b bs) (s.store (b :: bs))
  | chunkPayload (b : Byte) (bs : List Byte) (hs : s.st = .awaitingPayload)
      (hr : (s.store (b :: bs)).payloadComplete = false) : Reaction s (.rxChunk b bs) (s.store (b :: bs))
  /-- A chunk that completes the acknowledgment: with an error, with nothing to wait for, with a payload
  to wait for. -/
  | ackError (b : Byte) (bs : List Byte) (hs : s.st = .awaitingAck) (d : State)
      (hd : d = (s.store (b :: bs)).ackDecode (s.store (b :: bs)).lcmd)
      (hr : 12 ≤ (s.store (b :: bs)).rlen.toNat) (he : d.errcode ≠ 0) : Reaction s (.rxChunk b bs) d.deviceErrorEnd
  | ackEnd (b : Byte) (bs : List Byte) (hs : s.st = .awaitingAck) (d : State)
      (hd : d = (s.store (b :: bs)).ackDecode (s.store (b :: bs)).lcmd)
      (hr : 12 ≤ (s.store (b :: bs)).rlen.toNat) (he : d.errcode = 0) (hp : d.payloadComplete = true) :
      Reaction s (.rxChunk b bs) d.normalEnd
  | ackPayload (b : Byte) (bs : List Byte) (hs : s.st = .awaitingAck) (d : State)
      (hd : d = (s.store (b :: bs)).ackDecode (s.store (b :: bs)).lcmd)
      (hr : 12 ≤ (s.store (b :: bs)).rlen.toNat) (he : d.errcode = 0) (hp : d.payloadComplete = false) :
      Reaction s (.rxChunk b bs) { d with pretry := 0, wtimer := 0, st := .awaitingPayload }
  /-- A chunk that completes the payload. -/
  | payloadEnd (b : Byte) (bs : List Byte) (hs : s.st = .awaitingPayload)
      (hr : (s.store (b :: bs)).payloadComplete = true) : Reaction s (.rxChunk b bs) (s.store (b :: bs)).normalEnd
  /-- A tick inside a wait. -/
  | tickSending (hs : s.st = .sending) (hw : (s.wtimer + 1).toNat ≠ s.cfg.writeTimeoutTicks) :
      Reaction s .tick { s with wtimer := s.wtimer + 1 }
  | tickWindow (hs : s.st = .awaitingAck ∨ s.st = .awaitingPayload)
      (hw : (s.wtimer + 1).toNat ≠ s.cfg.rxWindowTicks) : Reaction s .tick { s with wtimer := s.wtimer + 1 }
  /-- A tick that ends a window of a wait that goes on. -/
  | windowAck (hs : s.st = .awaitingAck) (hr : (s.retry + 1).toNat ≠ Config.ackRetryBudget) :
      Reaction s .tick { s with wtimer := 0, retry := s.retry + 1 }
  | windowUnbounded (hs : s.st = .awaitingPayload) (hl : s.payloadRetryLimit = 0) :
      Reaction s .tick { s with wtimer := 0 }
  | windowPayload (hs : s.st = .awaitingPayload) (hl : s.payloadRetryLimit ≠ 0)
      (hp : s.pretry + 1 ≠ s.payloadRetryLimit) : Reaction s .tick { s with wtimer := 0, pretry := s.pretry + 1 }
  /-- A tick that ends the cycle. -/
  | writeTimeout (hs : s.st = .sending) :
      Reaction s .tick (({ s with wtimer := s.wtimer + 1 } : State).raiseFault .transportWriteTimeout)
  | ackTimeout (hs : s.st = .awaitingAck) (hr : (s.retry + 1).toNat = Config.ackRetryBudget) :
      Reaction s .tick (({ s with wtimer := 0, retry := s.retry + 1 } : State).raiseFault .protocolTimeout)
  | payloadTimeout (hs : s.st = .awaitingPayload) :
      Reaction s .tick (({ s with wtimer := 0, pretry := s.pretry + 1 } : State).raiseFault .payloadTimeout)
  /-- A presence edge. -/
  | presence (hp : s.cfg.hasPresence = true) : Reaction s .presenceEdge (s.emit .presence none)
  /-- Reset. -/
  | reset : Reaction s .reset s.onReset

/-- A gated operation: flagged while busy, performed while idle. -/
theorem Reaction.gate {s : State} {e : EnvEvent} (he : e ≠ .reset) {act : State → State}
    (h : s.busy = false → Reaction s e (act s)) : Reaction s e (s.whenIdle act) := by
  rcases Bool.eq_false_or_eq_true s.busy with hb | hb
  · rw [State.whenIdle_of_busy hb]; exact .flagged e he hb
  · rw [State.whenIdle_of_idle hb]; exact h hb

theorem Reaction.start {s : State} {e : EnvEvent} (he : e ≠ .reset) (hb : s.busy = false) {v : State}
    (hv : Loaded s v) : Reaction s e v.runOp := by
  unfold State.runOp
  split
  · exact .refused e he hb v hv _
  · exact .accepted e he hb v hv (by assumption)

/-- Every instruction is one of the reactions. -/
theorem exec_reaction {i : Instr} {s t : State} {e : EnvEvent} (he : e ≠ .reset) (h : exec i s = .next t) :
    Reaction s e t := by
  have cmd : ∀ (c : Byte) (a : FrameArgs), Host.Outcome.next (s.issue c a) = (.next t : Host.Outcome State Fault Refusal) →
      Reaction s e t := by
    rintro c a ⟨⟩
    exact .gate he fun hb => .start he hb (.issued c a)
  cases i with
  | build => obtain ⟨⟩ := h; exact .gate he fun hb => .build e he hb
  | run => obtain ⟨⟩ := h; exact .gate he fun hb => .start he hb .asIs
  | id2b =>
    obtain ⟨⟩ := h
    refine .gate he fun hb => ?_
    unfold State.id2bOp
    split
    · exact .refused e he hb s .asIs _
    · exact .id2b e he hb
  | decack => obtain ⟨⟩ := h; exact .gate he fun hb => .decack e he hb
  | enctpl =>
    obtain ⟨⟩ := h
    refine .gate he fun hb => ?_
    have hA := s.length_recordA s.idIn.toNat
    have hB := s.length_recordB s.idIn.toNat
    unfold State.enctplOp
    repeat' split
    · exact .refused e he hb s .asIs _
    · exact .refused e he hb s .asIs _
    · exact .refused e he hb s .asIs _
    · exact .enctpl e he hb _ _ (by rw [hB]; decide)
    · exact .enctpl e he hb _ _ (by rw [hA])
  | decdir =>
    obtain ⟨⟩ := h
    refine .gate he fun hb => ?_
    unfold State.decdirOp
    split
    · exact .refused e he hb s .asIs _
    · exact .decdir e he hb _
  | nextfree => obtain ⟨⟩ := h; exact .gate he fun hb => .nextfree e he hb
  | flipimg =>
    obtain ⟨⟩ := h
    refine .gate he fun hb => ?_
    unfold State.flipimgOp
    split
    · exact .refused e he hb s .asIs _
    · rw [State.foldl_flipRow_eq]
      exact .flipimg e he hb _ _ rfl
  | _ a => exact cmd _ a h

/-- `Tick` is one of the reactions, or changes nothing. -/
theorem onTick_reaction (s : State) : Reaction s .tick s.onTick := by
  have he : EnvEvent.tick ≠ .reset := by decide
  unfold State.onTick
  split
  · exact .ignored _ he
  · exact .ignored _ he
  · exact .ignored _ he
  · rename_i hs
    unfold State.onTickSending
    simp only
    split
    · exact .writeTimeout hs
    · exact .tickSending hs (by assumption)
  · rename_i hs
    unfold State.onTickAck
    simp only
    split
    · split
      · exact .ackTimeout hs (by assumption)
      · exact .windowAck hs (by assumption)
    · exact .tickWindow (.inl hs) (by assumption)
  · rename_i hs
    unfold State.onTickPayload
    simp only
    split
    · split
      · exact .windowUnbounded hs (by assumption)
      · split
        · exact .payloadTimeout hs
        · exact .windowPayload hs (by assumption) (by assumption)
    · exact .tickWindow (.inr hs) (by assumption)

/-- A chunk in either wait is one of the reactions. -/
theorem onChunkAck_reaction (s : State) (b : Byte) (bs : List Byte) (hs : s.st = .awaitingAck) :
    Reaction s (.rxChunk b bs) (s.onChunkAck (b :: bs)) := by
  unfold State.onChunkAck
  simp only
  split
  · rename_i hr
    unfold State.ackComplete
    simp only
    split
    · exact .ackError b bs hs _ rfl hr (by assumption)
    · rename_i he
      split
      · exact .ackEnd b bs hs _ rfl hr (not_not.1 he) (by assumption)
      · exact .ackPayload b bs hs _ rfl hr (not_not.1 he) (eq_false_of_ne_true (by assumption))
  · exact .chunkAck b bs hs (by omega)

theorem onChunkPayload_reaction (s : State) (b : Byte) (bs : List Byte) (hs : s.st = .awaitingPayload) :
    Reaction s (.rxChunk b bs) (s.onChunkPayload (b :: bs)) := by
  unfold State.onChunkPayload
  simp only
  split
  · exact .payloadEnd b bs hs (by assumption)
  · exact .chunkPayload b bs hs (eq_false_of_ne_true (by assumption))

/-- A host register write is one of the reactions. -/
theorem hostWrite_reaction (s : State) (n : Nat) (v : BusWord) :
    Reaction s (.hostWrite n v) (s.hostWrite n v) := by
  have he : EnvEvent.hostWrite n v ≠ .reset := by simp
  unfold State.hostWrite
  split
  · exact .gate he fun _ => .ignored _ he
  · rename_i r hn
    split
    · exact .regWrite r n v hn (.inl (by assumption))
    · exact .gate he fun hb => .regWrite r n v hn (.inr hb)

theorem bufOfSpace_eq_some {n : Nat} {b : Buf} (h : bufOfSpace n = some b) : n = b.space := by
  unfold bufOfSpace at h
  split at h <;> cases h <;> rfl

/-- A host buffer write is one of the reactions. -/
theorem hostBufWrite_reaction (s : State) (space i : Nat) (v : Byte) :
    Reaction s (.hostBufWrite space i v) (s.hostBufWrite space i v) := by
  have he : EnvEvent.hostBufWrite space i v ≠ .reset := by simp
  refine .gate he fun hb => ?_
  unfold State.bufStore
  split
  · rename_i b hn
    obtain rfl := bufOfSpace_eq_some hn
    split
    · rename_i h
      exact .bufWrite b i v h.2 h.1 hb
    · exact .ignored _ he
  · exact .ignored _ he

/-- An event without an instruction word is one of the reactions. -/
theorem react_reaction {e : EnvEvent} {s t : State} (h : s.react e = .next t) : Reaction s e t := by
  cases e with
  | hostWrite n v => obtain ⟨⟩ := h; exact hostWrite_reaction s n v
  | hostBufWrite space i v => obtain ⟨⟩ := h; exact hostBufWrite_reaction s space i v
  | hostRead n => obtain ⟨⟩ := h; exact .read _ (by simp) _
  | hostBufRead space i => obtain ⟨⟩ := h; exact .read _ (by simp) _
  | hostCommand f =>
    obtain ⟨⟩ := h
    exact .gate (by simp) fun hb => .start (by simp) hb (.issued _ _)
  | tpOpenOk =>
    simp only [State.react] at h
    split at h <;> first | (obtain ⟨⟩ := h; exact .openOk (by assumption)) | cases h
  | tpOpenFail =>
    simp only [State.react] at h
    split at h <;> first | (obtain ⟨⟩ := h; exact .openFail (by assumption)) | cases h
  | txWritten =>
    simp only [State.react] at h
    split at h
    · obtain ⟨⟩ := h
      unfold State.onTxWritten
      split
      · exact .writtenBaud (by assumption) (by assumption)
      · exact .written (by assumption) (by assumption)
    · cases h
    · cases h
    · cases h
    · cases h
    · cases h
  | rxChunk b bs =>
    simp only [State.react] at h
    split at h
    · obtain ⟨⟩ := h; exact onChunkAck_reaction s b bs (by assumption)
    · obtain ⟨⟩ := h; exact onChunkPayload_reaction s b bs (by assumption)
    · cases h
    · cases h
    · cases h
    · cases h
  | tick => obtain ⟨⟩ := h; exact onTick_reaction s
  | presenceEdge =>
    obtain ⟨⟩ := h
    unfold State.onPresence
    split
    · exact .presence (by assumption)
    · exact .ignored _ (by simp)
  | reset => obtain ⟨⟩ := h; exact .reset

/-- What a step can do: with no event pending nothing; otherwise it takes the next event, and the next
state is a reaction to it. -/
theorem step_cases {s t : State} (h : step s = .next t) :
    (s.inbox = [] ∧ t = s) ∨ ∃ e es, s.inbox = e :: es ∧ Reaction { s with inbox := es } e t := by
  unfold step at h
  split at h
  · rename_i hi; obtain ⟨⟩ := h; exact .inl ⟨hi, rfl⟩
  · rename_i e es hi
    refine .inr ⟨e, es, hi, ?_⟩
    unfold runEvent at h
    split at h
    · rename_i w hw
      have he : e ≠ .reset := by rintro rfl; cases hw
      split at h
      · exact exec_reaction he h
      · unfold State.undecoded at h
        split at h
        · exact react_reaction h
        · obtain ⟨⟩ := h
          exact .gate he fun hb => .refused e he hb _ .asIs _
        · exact react_reaction h
        · cases h
        · cases h
        · cases h
    · exact react_reaction h

end Sys2Proof.Machine
end

