-- ==== Sys2Proof/Tests/Slice0.lean ====
section
/-! SUPPORT. The tests. Expected values are those of `95_test_vectors.md` (named V<n>, S<n>, P<n>) or are
worked out by hand from the rule named. After them, for every statement with hypotheses, a witness: a
concrete state and operands that meet all of them, one for each clause, at the boundary of its range. -/

namespace Sys2Proof.Tests

open Sys2Proof.Machine

/-- The nominal parameters of `00_scope.md` R4; ERRKIND is any injective map. -/
def nominal : Params where
  ackP1Lo := 2
  ackP1Hi := 3
  ackP2Lo := 4
  ackP2Hi := 5
  errKind := { bytes := #v[1, 2, 3, 4, 5, 6, 7, 8, 9, 10] }
  rxWindowPred := 2
  writeTimeoutPred := 3
  pbufExtra := 11084
  hasPresence := true

/-- The reset state with the nominal parameters. -/
def idle : State := { State.reset with cfg := nominal }

/-- The state of an outcome, or the given state where there is none. -/
def after (o : Host.Outcome State Fault Refusal) (s : State) : State :=
  match o with
  | .next t => t
  | .fault _ | .refused _ => s

/-- One instruction executed. -/
def did (i : Instr) (s : State) : State := after (exec i s) s

/-- One step on the given event. -/
def took (e : EnvEvent) (s : State) : State := after (step { s with inbox := [e] }) s

/-- Nine operand registers, the command first. -/
def xs (cmd p1l p1h : Byte) : Vector Byte 9 := #v[cmd, p1l, p1h, 0, 0, 0, 0, 0, 0]

/-- Operands all zero. -/
def zeros : FrameArgs := ⟨0, 0, 0, 0, 0, 0, 0, 0, 0⟩

/-! ### What the checks on a word refuse -/

theorem test_check_length : wordLengthOk [1, 2, 3] = false ∧
    (match decode [1, 2, 3] with | .error (.badLength 3) => true | _ => false) = true := by decide

theorem test_check_reserved : reservedByteOk [0, 0x7D, 0, 0, 0, 0, 0, 0, 0, 0, 1, 0x7D] = false ∧
    (match decode [0, 0x7D, 0, 0, 0, 0, 0, 0, 0, 0, 1, 0x7D] with
      | .error (.reservedNotZero 1) => true | _ => false) = true := by decide

theorem test_check_checksum : checksumOk [0, 0x7D, 0, 0, 0, 0, 0, 0, 0, 0, 0, 0x7E] = false ∧
    (match decode [0, 0x7D, 0, 0, 0, 0, 0, 0, 0, 0, 0, 0x7E] with
      | .error (.checksumMismatch 0x7E) => true | _ => false) = true := by decide

theorem test_check_start : startBitOk [0x01, 0x00] = false ∧
    (match decode [0x01, 0x00] with | .error .startNotSet => true | _ => false) = true := by decide

theorem test_check_op : opAssigned [0x00, 0x01] = false ∧ opAssigned [0x09, 0x01] = false ∧
    opAssigned [0x0F, 0x01] = false ∧
    (match decode [0x0F, 0x01] with | .error (.illegalOp 15) => true | _ => false) = true := by decide

/-- A command byte outside R82's map (V55's 0x99). -/
theorem test_check_command :
    (match decode [0, 0x99, 0, 0, 0, 0, 0, 0, 0, 0, 0, 0x99] with
      | .error (.unknownCommand 0x99 _) => true | _ => false) = true := by decide

/-! ### Every constructor's word, written out from R70, R82 (V9) and R16, R90 -/

theorem test_decode_baud : decode [0, 0x21, 0, 0, 0, 0, 0, 0, 0, 0, 0, 0x21] = .ok (.baud zeros) := by rfl
theorem test_decode_status : decode [0, 0x30, 0, 0, 0, 0, 0, 0, 0, 0, 0, 0x30] = .ok (.status zeros) := by rfl
theorem test_decode_enrollStart :
    decode [0, 0x50, 0, 0, 0, 0, 0, 0, 0, 0, 0, 0x50] = .ok (.enrollStart zeros) := by rfl
theorem test_decode_enrollFinish :
    decode [0, 0x51, 0, 0, 0, 0, 0, 0, 0, 0, 0, 0x51] = .ok (.enrollFinish zeros) := by rfl
/-- V4: id bytes in param1, low byte first. -/
theorem test_decode_delete :
    decode [0, 0x54, 0x42, 0, 0, 0, 0, 0, 0, 0, 0, 0x96] = .ok (.delete { zeros with p1l := 0x42 }) := by rfl
/-- V3: the channel is an operand and is not summed. -/
theorem test_decode_verify : decode [0xA5, 0x55, 0x23, 0x01, 0, 0, 0, 0, 0, 0, 0, 0x79]
    = .ok (.verify { zeros with channel := 0xA5, p1l := 0x23, p1h := 0x01 }) := by rfl
theorem test_decode_identify :
    decode [0, 0x56, 0, 0, 0, 0, 0, 0, 0, 0, 0, 0x56] = .ok (.identify zeros) := by rfl
theorem test_decode_getImage :
    decode [0, 0x43, 0, 0, 0, 0, 0, 0, 0, 0, 0, 0x43] = .ok (.getImage zeros) := by rfl
/-- V5: extra A low 0x30, high 0x03. -/
theorem test_decode_putTemplate : decode [0, 0x71, 0x23, 0x01, 0, 0, 0x30, 0x03, 0, 0, 0, 0xC8]
    = .ok (.putTemplate { zeros with p1l := 0x23, p1h := 0x01, eal := 0x30, eah := 0x03 }) := by rfl
/-- V2: the sum wraps. -/
theorem test_decode_getTemplate :
    decode [0, 0x73, 0xFF, 0xFF, 0xFF, 0xFF, 0xFF, 0xFF, 0xFF, 0xFF, 0, 0x6B]
      = .ok (.getTemplate ⟨0, 0xFF, 0xFF, 0xFF, 0xFF, 0xFF, 0xFF, 0xFF, 0xFF⟩) := by rfl
theorem test_decode_list : decode [0, 0x7D, 0, 0, 0, 0, 0, 0, 0, 0, 0, 0x7D] = .ok (.list zeros) := by rfl
theorem test_decode_build : decode [0x01, 0x01] = .ok .build := by rfl
theorem test_decode_run : decode [0x02, 0x01] = .ok .run := by rfl
theorem test_decode_id2b : decode [0x03, 0x01] = .ok .id2b := by rfl
theorem test_decode_decack : decode [0x04, 0x01] = .ok .decack := by rfl
theorem test_decode_enctpl : decode [0x05, 0x01] = .ok .enctpl := by rfl
theorem test_decode_decdir : decode [0x06, 0x01] = .ok .decdir := by rfl
theorem test_decode_nextfree : decode [0x07, 0x01] = .ok .nextfree := by rfl
theorem test_decode_flipimg : decode [0x08, 0x01] = .ok .flipimg := by rfl

/-- An opcode-table word of 96 bits, byte 0 least significant (R83): command 0x54, operand byte 2 = 0x42. -/
theorem test_table_word : decodeTableWord 96 0x425400 = some (.delete { zeros with p1l := 0x42 }) := by rfl

/-! ### Host operations -/

/-- V2. -/
theorem test_build_wraps :
    (did .build { idle with x := #v[0x73, 0xFF, 0xFF, 0xFF, 0xFF, 0xFF, 0xFF, 0xFF, 0xFF] }).bytesFrom .txf 0 12
      = [0x00, 0x73, 0xFF, 0xFF, 0xFF, 0xFF, 0xFF, 0xFF, 0xFF, 0xFF, 0x00, 0x6B] := by decide

/-- V8: all ones, the reserved byte stays 0x00. -/
theorem test_build_ones :
    (did .build { idle with channel := 0xFF, x := Vector.replicate 9 0xFF }).bytesFrom .txf 0 12
      = [0xFF, 0xFF, 0xFF, 0xFF, 0xFF, 0xFF, 0xFF, 0xFF, 0xFF, 0xFF, 0x00, 0xF7] := by decide

/-- V55: refused, nothing sent, ST and BUSY as they were. -/
theorem test_run_refused : let t := did .run { idle with x := xs 0x99 0 0 }
    t.resultClass = .illegalRequest ∧ t.resultCode = 0x02 ∧ t.busy = false ∧ t.st = .idle ∧ t.txf = [] ∧
      t.portlog = [] ∧ t.evlog = [(.done, none)] := by decide

/-- P4: accepted from Failed; DEGRADED is cleared by the configure step, the rate is handed over. -/
theorem test_run_accepted :
    let t := did .run { idle with x := xs 0x30 0 0, st := .failed, degraded := true, baud := 115200 }
    t.st = .configuring ∧ t.busy = true ∧ t.degraded = false ∧ t.lcmd = 0x30 ∧
      t.portlog = [.tpOpenReq 115200 ⟨8, false, 1, false⟩, .tpClearError] := by decide

/-- V20: 123 and 4096. -/
theorem test_id2b : let t := did .id2b { idle with idIn := 123 }
    let u := did .id2b { idle with idIn := 4096 }
    t.idLo = 0x23 ∧ t.idHi = 0x01 ∧ u.idLo = 0x96 ∧ u.idHi = 0x40 := by decide

/-- V21: 10000 is refused and the results stay. -/
theorem test_id2b_refused : let t := did .id2b { idle with idIn := 10000, idLo := 0x51 }
    t.resultClass = .illegalRequest ∧ t.resultCode = 0x05 ∧ t.idLo = 0x51 ∧ t.idHi = 0 := by decide

/-- V17h: the largest list length. -/
theorem test_decack_list :
    let t := did .decack { idle with
      x := xs 0x7D 0 0, rlen := 12, ack := cellsFrom 0 [0, 0x7D, 0, 0x99, 0x99, 0x99, 0, 0, 0, 0, 0, 0] }
    t.errcode = 0 ∧ t.param1 = 9900 ∧ t.param2 = 9999 ∧ t.declen = 118800 ∧ t.wBadDigit = false := by decide

/-- V17c and V17d: an error forces DECLEN = 0; a bad nibble. -/
theorem test_decack_error :
    let t := did .decack { idle with
      x := xs 0x7D 0 0, rlen := 12, ack := cellsFrom 0 [0, 0x7D, 3, 1, 0, 0, 0, 0, 0, 0, 0, 0] }
    let u := did .decack { idle with
      x := xs 0x7D 0 0, rlen := 12, ack := cellsFrom 0 [0, 0x7D, 0, 0x1A, 0, 0, 0, 0, 0, 0, 0, 0] }
    t.errcode = 3 ∧ t.param1 = 103 ∧ t.declen = 0 ∧ t.resultClass = .ok ∧
      u.p1Valid = false ∧ u.p2Valid = true ∧ u.wBadDigit = true := by decide

/-- V37: the empty compact record. -/
theorem test_enctpl_b : let t := did .enctpl { idle with fmt := 1 }
    t.txlen = 816 ∧ t.byteAt .tbuf 0 = 0 ∧ t.byteAt .tbuf 803 = 0 ∧ t.byteAt .tbuf 804 = 0xFF ∧
      t.byteAt .tbuf 815 = 0xFF := by decide +kernel

/-- By hand from R169, R170: HLEN = 12 and L1 = 11 is two templates; T2's length field lies beyond HLEN. -/
theorem test_enctpl_a :
    let t := did .enctpl { idle with
      hlen := 12, idIn := 9999, hbuf := cellsFrom 0 [1, 2, 3, 4, 5, 6, 7, 8, 0, 11, 9, 10] }
    t.txlen = 1616 ∧ t.byteAt .tbuf 0 = 0x99 ∧ t.byteAt .tbuf 14 = 9 ∧ t.byteAt .tbuf 15 = 0 ∧
      t.byteAt .tbuf 804 = 0 ∧ t.byteAt .tbuf 1604 = 0xFF ∧ t.wTplOor = true ∧ t.wTplClip = false := by
  decide +kernel

/-- S2. -/
theorem test_decdir :
    let t := did .decdir { idle with
      rlen := 48, entryCount := 3, pbuf := [(0, 7), (1, 0), (12, 0x42), (13, 0), (24, 7), (25, 0)] }
    t.dirmap = some [7, 42] ∧ t.dirCount = 2 ∧ t.wBadDigit = false := by decide

/-- V42 and V44: a bad entry is skipped; one byte short is refused. -/
theorem test_decdir_bad :
    let t := did .decdir { idle with
      rlen := 48, entryCount := 3, pbuf := [(0, 7), (1, 0), (12, 0x4A), (13, 0), (24, 7), (25, 0)] }
    let u := did .decdir { idle with rlen := 59, entryCount := 4, dirCount := 5 }
    t.dirmap = some [7] ∧ t.dirCount = 1 ∧ t.wBadDigit = true ∧ u.resultCode = 0x07 ∧ u.dirCount = 5 := by
  decide

/-- V53 and V54. -/
theorem test_nextfree : (did .nextfree { idle with dirmap := some [1, 3] }).nextFree = 2 ∧
    (did .nextfree { idle with dirmap := some [0, 2] }).nextFree = 1 := by decide

/-- V41. -/
theorem test_flipimg_refused : let t := did .flipimg { idle with rlen := 19511 }
    t.resultClass = .illegalRequest ∧ t.resultCode = 0x08 ∧ t.ibuf = [] := by decide

/-- R180: input row 1, column 2 goes to output row 148, column 2. -/
theorem test_flipimg_row :
    (({ idle with pbuf := [(132, 0xAB)] } : State).flipRow 1).byteAt .ibuf (132 * 148 + 2) = 0xAB := by decide

/-! ### Device commands, issued from idle -/

theorem test_baud : let t := did (.baud { zeros with p1l := 5 }) idle
    t.bytesFrom .txf 0 12 = [0, 0x21, 5, 0, 0, 0, 0, 0, 0, 0, 0, 0x26] ∧ t.st = .configuring := by decide
theorem test_status : let t := did (.status zeros) idle
    t.bytesFrom .txf 0 12 = [0, 0x30, 0, 0, 0, 0, 0, 0, 0, 0, 0, 0x30] ∧ t.lcmd = 0x30 := by decide
theorem test_enrollStart : let t := did (.enrollStart zeros) idle
    t.bytesFrom .txf 0 12 = [0, 0x50, 0, 0, 0, 0, 0, 0, 0, 0, 0, 0x50] ∧ t.lcmd = 0x50 := by decide
theorem test_enrollFinish : let t := did (.enrollFinish zeros) idle
    t.bytesFrom .txf 0 12 = [0, 0x51, 0, 0, 0, 0, 0, 0, 0, 0, 0, 0x51] ∧ t.lcmd = 0x51 := by decide
theorem test_delete : let t := did (.delete { zeros with p1l := 0x42 }) idle
    t.bytesFrom .txf 0 12 = [0, 0x54, 0x42, 0, 0, 0, 0, 0, 0, 0, 0, 0x96] ∧ t.lcmd = 0x54 := by decide
theorem test_verify : let t := did (.verify { zeros with p1l := 0x23, p1h := 0x01 }) idle
    t.bytesFrom .txf 0 12 = [0, 0x55, 0x23, 0x01, 0, 0, 0, 0, 0, 0, 0, 0x79] ∧ t.lcmd = 0x55 := by decide
theorem test_identify : let t := did (.identify zeros) idle
    t.bytesFrom .txf 0 12 = [0, 0x56, 0, 0, 0, 0, 0, 0, 0, 0, 0, 0x56] ∧ t.lcmd = 0x56 := by decide
/-- V57. -/
theorem test_getImage : (did (.getImage zeros) { idle with expectLen := 131072 }).lcmd = 0x43 ∧
    (did (.getImage zeros) { idle with expectLen := 131073 }).resultCode = 0x04 := by decide
/-- V56. -/
theorem test_putTemplate : (did (.putTemplate zeros) { idle with txlen := 1616 }).lcmd = 0x71 ∧
    (did (.putTemplate zeros) { idle with txlen := 1617 }).resultCode = 0x03 := by decide
theorem test_getTemplate : let t := did (.getTemplate zeros) idle
    t.bytesFrom .txf 0 12 = [0, 0x73, 0, 0, 0, 0, 0, 0, 0, 0, 0, 0x73] ∧ t.lcmd = 0x73 := by decide
theorem test_list : let t := did (.list zeros) idle
    t.bytesFrom .txf 0 12 = [0, 0x7D, 0, 0, 0, 0, 0, 0, 0, 0, 0, 0x7D] ∧ t.lcmd = 0x7D := by decide

/-! ### Events, each one step from a state of a cycle -/

/-- A cycle of command `c` waiting for its acknowledgment, as V70 to V81 reach it. -/
def waiting (c : Byte) : State :=
  { idle with
    x := xs c 0 0, busy := true, st := .awaitingAck, lcmd := c
    txf := cellsFrom 0 (frameBytes c zeros), txlog := frameBytes c zeros
    portlog := [.tpOpenReq 9600 ⟨8, false, 1, false⟩, .tpClearError] ++ (frameBytes c zeros).map .txData }

/-- V74. -/
theorem test_rx_error :
    let t := took (.rxChunk 0x00 [0x56, 0x09, 0x12, 0x34, 0x12, 0, 0, 0, 0, 0, 0xB7, 1, 2, 3]) (waiting 0x56)
    t.st = .idle ∧ t.resultClass = .deviceError ∧ t.resultCode = 9 ∧ t.param1 = 1209 ∧ t.param2 = 1234 ∧
      t.declen = 0 ∧ t.rlen = 15 ∧ t.bytesFrom .pbuf 0 3 = [1, 2, 3] ∧ t.evlog = [(.deverr, some 9), (.done, none)] := by
  decide

/-- V78: of a template response cut at 20 bytes, eight payload bytes are the whole result. -/
theorem test_rx_template :
    let t := took (.rxChunk 0x00 [0x73, 0, 0, 0, 0, 0, 0, 0, 0, 0, 0x73, 1, 2, 3, 4, 5, 6, 7, 8]) (waiting 0x73)
    t.st = .idle ∧ t.resultClass = .ok ∧ t.rlen = 20 ∧ t.declen = 8 ∧ t.plen = 8 := by decide

/-- P1: the list acknowledgment with 100 entries and no payload yet. -/
theorem test_rx_list :
    let t := took (.rxChunk 0x00 [0x7D, 0, 1, 0, 0, 0, 0, 0, 0, 0, 0x7E]) (waiting 0x7D)
    t.st = .awaitingPayload ∧ t.declen = 1200 ∧ t.busy = true ∧ t.evlog = [] := by decide

/-- P2: the 15th tick. -/
theorem test_ack_timeout :
    let t := took .tick { waiting 0x55 with retry := 4, wtimer := 2 }
    t.st = .failed ∧ t.retry = 5 ∧ t.wtimer = 0 ∧ t.resultClass = .protocolTimeout ∧ t.degraded = false ∧
      t.evt = 0b0101 := by decide

/-- V72: the 4th tick in Sending. -/
theorem test_write_timeout :
    let t := took .tick { waiting 0x30 with st := .sending, wtimer := 3 }
    t.st = .failed ∧ t.wtimer = 4 ∧ t.degraded = true ∧ t.resultClass = .transportWriteTimeout ∧
      t.evlog = [(.done, none)] := by decide

/-- V79: the last tick of the second empty window. -/
theorem test_payload_timeout :
    let t := took .tick { waiting 0x43 with
      st := .awaitingPayload, rlen := 122, declen := 19500, payloadRetryLimit := 2, pretry := 1, wtimer := 2 }
    t.st = .failed ∧ t.pretry = 2 ∧ t.resultClass = .payloadTimeout ∧
      t.evlog = [(.timeout, some 0), (.done, none)] := by decide

/-- R25, D4, U15: a write to a missing register or beyond a buffer is flagged while BUSY = 1, and ignored (R26)
while BUSY = 0. -/
theorem test_busy_write_missing :
    (took (.hostWrite 0x25 1) (waiting 0x30)).wBusyViol = true ∧
    (took (.hostBufWrite 1 12 1) (waiting 0x30)).wBusyViol = true ∧
    (took (.hostWrite 0x25 1) idle).wBusyViol = false ∧
    (took (.hostBufWrite 1 12 1) idle).ack = [] := by decide

/-- V90: Reset in a cycle closes the transport once and emits nothing. -/
theorem test_reset : let t := took .reset (waiting 0x30)
    t.st = .idle ∧ t.busy = false ∧ t.lcmd = 0 ∧ t.evlog = [] ∧ t.portlog.getLast? = some .tpClose := by decide

/-! ### Witnesses: the hypotheses of each statement can be met -/

theorem witness_DecodeEncodeAgree : (Instr.verify zeros).wellFormed = true := by decide

theorem witness_DecodedFrameReencodes :
    let w : List Byte := [0xA5, 0x55, 0x23, 0x01, 0, 0, 0, 0, 0, 0, 0, 0x79]
    w.length = 12 ∧ decode w = .ok (.verify { zeros with channel := 0xA5, p1l := 0x23, p1h := 0x01 }) :=
  ⟨rfl, rfl⟩

theorem witness_StepRunsDecodedInstruction :
    let s := { idle with inbox := [.hostWrite 0 0x107, .tick] }
    s.inbox = .hostWrite 0 0x107 :: [.tick] ∧ (EnvEvent.hostWrite 0 0x107).word = some [0x07, 0x01] ∧
      decode [0x07, 0x01] = .ok .nextfree ∧ Instr.nextfree.wellFormed = true :=
  ⟨rfl, rfl, rfl, rfl⟩

theorem witness_StepCompletesExactlyOnEnabledEvents : idle.inbox = [] ∧
    ({ idle with inbox := [.txWritten] } : State).inbox = .txWritten :: [] ∧
    EnvEvent.txWritten.enabledIn idle.st = false ∧ EnvEvent.tick.enabledIn idle.st = true := by decide

theorem witness_idle : idle.busy = false := by decide

theorem witness_RunAcceptedStartsCycle :
    let s := { idle with x := xs 0x71 0 0, txlen := 1616 }
    let u := { idle with x := xs 0x43 0 0, expectLen := 131072 }
    (s.busy = false ∧ Command.ofByte s.x[0] ≠ none ∧ (s.x[0] = 0x71 → s.txlen.toNat ≤ 1616) ∧
      (s.x[0] = 0x43 → s.expectLen.toNat ≤ s.cfg.pbufCap)) ∧
    (u.busy = false ∧ Command.ofByte u.x[0] ≠ none ∧ (u.x[0] = 0x71 → u.txlen.toNat ≤ 1616) ∧
      (u.x[0] = 0x43 → u.expectLen.toNat ≤ u.cfg.pbufCap)) := by decide

theorem witness_RunRefusedByFirstCondition :
    ({ idle with x := xs 0x22 0 0 } : State).busy = false ∧ Command.ofByte (xs 0x22 0 0)[0] = none ∧
    (xs 0x71 0 0)[0] = 0x71 ∧ 1616 < ({ idle with txlen := 1617 } : State).txlen.toNat ∧
    (xs 0x43 0 0)[0] = 0x43 ∧ nominal.pbufCap < ({ idle with expectLen := 131073 } : State).expectLen.toNat := by
  decide

theorem witness_StartIgnoredWhileBusy : (waiting 0x30).busy = true := by decide

/-- OP = 0, 9 and 15 with START, and no START. -/
theorem witness_UnassignedOperationRefused :
    let s := fun v : BusWord => { idle with inbox := [.hostWrite 0 v] }
    let ok := fun v : BusWord => v.getLsbD 8 = true ∧ (v.toNat % 16 = 0 ∨ 9 ≤ v.toNat % 16)
    (s 0x100).busy = false ∧ (s 0x100).inbox = .hostWrite 0 0x100 :: [] ∧ ok 0x100 ∧ ok 0x109 ∧ ok 0x10F ∧
      (0x0FF : BusWord).getLsbD 8 = false := by decide

theorem witness_FailedActsAsIdle : ({ idle with st := .failed } : State).st = .failed := by decide

theorem witness_CommandsStartTheirCycle :
    (Instr.list zeros, (0x7D : Byte)) ∈ [(Instr.baud zeros, (0x21 : Byte)), (.status zeros, 0x30),
      (.enrollStart zeros, 0x50), (.enrollFinish zeros, 0x51), (.delete zeros, 0x54), (.verify zeros, 0x55),
      (.identify zeros, 0x56), (.getTemplate zeros, 0x73), (.list zeros, 0x7D)] ∧ idle.busy = false := by decide

theorem witness_ImageAndTemplateCommandsStartTheirCycle :
    ({ idle with expectLen := 131072 } : State).busy = false ∧
    ({ idle with expectLen := 131072 } : State).expectLen.toNat ≤ nominal.pbufCap ∧
    ({ idle with txlen := 1616 } : State).busy = false ∧ ({ idle with txlen := 1616 } : State).txlen.toNat ≤ 1616 := by
  decide

theorem witness_Id2bWritesDecimalDigits : idle.busy = false ∧
    ({ idle with idIn := 9999 } : State).idIn.toNat ≤ 9999 ∧ 9999 < ({ idle with idIn := 10000 } : State).idIn.toNat := by
  decide

theorem witness_IdBytesAreHexReadDecimalString : (99 ≤ 9999 ∧ 99 < 100) ∧ (100 ≤ 100 ∧ 9999 ≤ 9999) := by
  omega

theorem witness_PackedDecimalRoundTrip : 9999 ≤ 9999 ∧ (pairval 0x99 0x99).2 = true ∧
    (pairval 0x0A 0x00).2 = false := ⟨by omega, by decide, by decide⟩

theorem witness_EnctplRefused : idle.busy = false ∧ 9999 < ({ idle with idIn := 10000 } : State).idIn.toNat ∧
    1600 < ({ idle with hlen := 1601 } : State).hlen.toNat ∧
    ({ idle with hlen := 9 } : State).fmt = 0 ∧ ({ idle with hlen := 9 } : State).hlen.toNat < 10 := by decide

theorem witness_EnctplFormatBRecord : let s := { idle with fmt := 1, idIn := 9999, hlen := 1600 }
    s.busy = false ∧ s.fmt = 1 ∧ s.idIn.toNat ≤ 9999 ∧ s.hlen.toNat ≤ 1600 := by decide

/-- HLEN = 11 is one byte longer than the length field L1 = 10. -/
theorem witness_EnctplFormatATwoTemplates :
    let s := { idle with hlen := 11, hbuf := cellsFrom 0 [0, 0, 0, 0, 0, 0, 0, 0, 0, 10, 0] }
    let rd := fun i => if i < s.hlen.toNat then (s.byteAt .hbuf i).toNat else 0
    s.busy = false ∧ s.fmt = 0 ∧ s.idIn.toNat ≤ 9999 ∧ 10 ≤ s.hlen.toNat ∧ s.hlen.toNat ≤ 1600 ∧
      256 * rd 8 + rd 9 < s.hlen.toNat := by decide

/-- HLEN = L1 = 10 exactly. -/
theorem witness_EnctplFormatAOneTemplate :
    let s := { idle with hlen := 10, hbuf := cellsFrom 0 [0, 0, 0, 0, 0, 0, 0, 0, 0, 10] }
    s.busy = false ∧ s.fmt = 0 ∧ s.idIn.toNat ≤ 9999 ∧ 10 ≤ s.hlen.toNat ∧ s.hlen.toNat ≤ 1600 ∧
      s.hlen.toNat ≤ 256 * (s.byteAt .hbuf 8).toNat + (s.byteAt .hbuf 9).toNat := by decide

theorem witness_DecdirDecodesDirectory :
    let s := { idle with rlen := 60, entryCount := 4 }
    let u := { idle with rlen := 59, entryCount := 4 }
    s.busy = false ∧ 12 * s.entryCount.toNat ≤ s.plen ∧ u.plen < 12 * u.entryCount.toNat := by decide

theorem witness_FlipimgMovesPixels : idle.busy = false ∧ 19500 ≤ ({ idle with rlen := 19512 } : State).plen ∧
    ({ idle with rlen := 19511 } : State).plen < 19500 := by decide

theorem witness_OpenEvents : let s := { waiting 0x30 with st := .configuring, inbox := [.tpOpenOk] }
    let u := { waiting 0x30 with st := .configuring, inbox := [.tpOpenFail] }
    let v := { waiting 0x30 with st := .configuring, inbox := [.tick] }
    s.st = .configuring ∧ s.inbox = .tpOpenOk :: [] ∧ u.st = .configuring ∧ u.inbox = .tpOpenFail :: [] ∧
      v.st = .configuring ∧ v.inbox = .tick :: [] ∧ idle.st = .idle ∧ { v with st := .failed }.st = .failed := by
  decide

theorem witness_WriteTimesOutAtItsTick :
    let s : State := { waiting 0x30 with st := .sending, inbox := List.replicate 4 .tick ++ [.txWritten] }
    s.st = .sending ∧ s.wtimer = 0 ∧ s.inbox = List.replicate 4 .tick ++ [.txWritten] ∧
      3 < s.cfg.writeTimeoutTicks ∧ 4 = s.cfg.writeTimeoutTicks := by decide

theorem witness_TxWrittenEndsBaudOrAwaitsAck :
    let s := fun c => { waiting c with st := .sending, inbox := [.txWritten] }
    (s 0x21).st = .sending ∧ (s 0x21).inbox = .txWritten :: [] ∧ (s 0x21).lcmd = 0x21 ∧ (s 0x30).lcmd ≠ 0x21 := by
  decide

theorem witness_ChunkStoredInOrder : (waiting 0x30).rlen.toNat + [(1 : Byte), 2].length < 2 ^ 32 := by decide

/-- Eleven bytes are short of an acknowledgment, twelve complete it. -/
theorem witness_AckChunks :
    let s := { waiting 0x30 with rlen := 10, inbox := [.rxChunk 0 []] }
    let u := { waiting 0x30 with rlen := 11, inbox := [.rxChunk 0 []] }
    s.st = .awaitingAck ∧ s.rlen.toNat + (([] : List Byte).length + 1) < 12 ∧ s.inbox = .rxChunk 0 [] :: [] ∧
    u.st = .awaitingAck ∧ 12 ≤ u.rlen.toNat + (([] : List Byte).length + 1) ∧
      u.rlen.toNat + (([] : List Byte).length + 1) < 2 ^ 32 ∧ u.inbox = .rxChunk 0 [] :: [] := by decide

/-- The three ways an acknowledgment is decided, each reached. -/
theorem witness_AckCompleteClauses :
    let d := fun (c : Byte) (bs : List Byte) => ((waiting c).store bs).ackDecode c
    let e := d 0x30 [0, 0x30, 1, 0, 0, 0, 0, 0, 0, 0, 0, 0]
    let n := d 0x30 [0, 0x30, 0, 0, 0, 0, 0, 0, 0, 0, 0, 0]
    let p := d 0x7D [0, 0x7D, 0, 1, 0, 0, 0, 0, 0, 0, 0, 0]
    e.errcode ≠ 0 ∧ (n.errcode = 0 ∧ n.declen.toNat ≤ n.rlen.toNat - 12) ∧
      (p.errcode = 0 ∧ p.rlen.toNat - 12 < p.declen.toNat) := by decide

theorem witness_PayloadChunkEndsOrWaits :
    let s := { waiting 0x43 with
      st := .awaitingPayload, rlen := 110, declen := 99, inbox := [.rxChunk 7 []] }
    s.st = .awaitingPayload ∧ s.rlen.toNat + (([] : List Byte).length + 1) < 2 ^ 32 ∧
      s.inbox = .rxChunk 7 [] :: [] ∧ s.declen.toNat ≤ s.rlen.toNat + (([] : List Byte).length + 1) - 12 ∧
      s.rlen.toNat + (([] : List Byte).length + 1) - 12 < ({ s with declen := 100 } : State).declen.toNat := by
  decide

theorem witness_AckTimeoutAfterFiveWindows :
    let s := { waiting 0x55 with inbox := List.replicate 15 .tick }
    s.st = .awaitingAck ∧ s.wtimer = 0 ∧ s.retry = 0 ∧ s.inbox = List.replicate 15 .tick ++ [] ∧
      14 < 5 * s.cfg.rxWindowTicks ∧ 15 = 5 * s.cfg.rxWindowTicks := by decide

theorem witness_PayloadWaits :
    let s := { waiting 0x43 with st := .awaitingPayload, declen := 5, rlen := 12, inbox := List.replicate 6 .tick }
    s.st = .awaitingPayload ∧ s.wtimer = 0 ∧ s.pretry = 0 ∧ s.payloadRetryLimit = 0 ∧
      s.inbox = List.replicate 6 .tick ++ [] ∧
      ({ s with payloadRetryLimit := 2 } : State).payloadRetryLimit ≠ 0 ∧ 5 < 2 * s.cfg.rxWindowTicks ∧
      6 = 2 * s.cfg.rxWindowTicks := by decide

/-- A busy state whose next event ends its cycle, with the result class it ends with. -/
def endsWith (e : EnvEvent) (s : State) : Option ResultClass :=
  match step { s with inbox := [e] } with
  | .next t => if s.busy && !t.busy then some t.resultClass else none
  | .fault _ | .refused _ => none

/-- The hypotheses are met by each way a cycle ends. -/
theorem witness_CycleEndReportedTwice :
    let ack := fun code => EnvEvent.rxChunk 0 [0x55, code, 0, 0, 0, 0, 0, 0, 0, 0, 0]
    let payload := { waiting 0x43 with st := .awaitingPayload, rlen := 12, declen := 5, payloadRetryLimit := 1 }
    endsWith .tick { waiting 0x55 with retry := 4, wtimer := 2 } = some .protocolTimeout ∧
    endsWith .tick { payload with wtimer := 2 } = some .payloadTimeout ∧
    endsWith .tick { waiting 0x55 with st := .sending, wtimer := 3 } = some .transportWriteTimeout ∧
    endsWith .tpOpenFail { waiting 0x55 with st := .configuring } = some .transportOpenFailed ∧
    endsWith (ack 9) (waiting 0x55) = some .deviceError ∧ endsWith (ack 0) (waiting 0x55) = some .ok ∧
    EnvEvent.tick ≠ .reset ∧ EnvEvent.tpOpenFail ≠ .reset ∧ ack 9 ≠ .reset := by decide

/-- The frame of a command as the vector an event carries. -/
def frameOf (c : Byte) : Vector Byte 12 := #v[0, c, 0, 0, 0, 0, 0, 0, 0, 0, 0, c]

theorem witness_BaudCycleIsNotAcknowledged :
    let s := { idle with inbox := [.hostCommand (frameOf 0x21), .tpOpenOk, .txWritten] }
    s.busy = false ∧ (frameOf 0x21).toList = encode (.baud zeros) ∧
      s.inbox = [.hostCommand (frameOf 0x21), .tpOpenOk, .txWritten] ++ [] := by decide

theorem witness_AckOnlyCycleReturnsErrorCode :
    let bs : List Byte := [0x56, 9, 0, 0, 0, 0, 0, 0, 0, 0, 0]
    let s := { idle with inbox := [.hostCommand (frameOf 0x56), .tpOpenOk, .txWritten, .rxChunk 0 bs] }
    Instr.identify zeros ∈ [Instr.status zeros, .enrollStart zeros, .enrollFinish zeros, .delete zeros,
      .verify zeros, .identify zeros] ∧ s.busy = false ∧ (frameOf 0x56).toList = encode (.identify zeros) ∧
      bs.length = 11 ∧ s.inbox = [.hostCommand (frameOf 0x56), .tpOpenOk, .txWritten, .rxChunk 0 bs] ++ [] := by
  decide

theorem witness_GetTemplateTakesWhatArrived :
    let bs : List Byte := [0x73, 0, 0, 0, 0, 0, 0, 0, 0, 0, 0x73]
    let p : List Byte := [1, 2, 3]
    let s := { idle with inbox := [.hostCommand (frameOf 0x73), .tpOpenOk, .txWritten, .rxChunk 0 (bs ++ p)] }
    s.busy = false ∧ (frameOf 0x73).toList = encode (.getTemplate zeros) ∧ bs.length = 11 ∧ bs.getD 1 0 = 0 ∧
      p.length ≤ s.cfg.pbufCap ∧ p.length + 12 < 2 ^ 32 ∧
      s.inbox = [.hostCommand (frameOf 0x73), .tpOpenOk, .txWritten, .rxChunk 0 (bs ++ p)] ++ [] := by decide

theorem witness_HostWriteKeepsLowBits : idle.busy = false ∧ (0x04, 4) ∈ [(0x04, 4), (0x1C, 32)] ∧
    (0x1C, 32) ∈ [(0x04, 4), (0x1C, 32)] ∧ 1 ≠ 0 ∧
    ({ waiting 0x30 with inbox := [.hostWrite 1 0x100] } : State).inbox = .hostWrite 1 0x100 :: [] := by decide

theorem witness_HostWriteIgnoredWhileBusy : (waiting 0x30).busy = true ∧ 0x24 ≠ 0x01 ∧
    0x24 ≠ 0x03 ∧ 0x24 ≠ 0x04 ∧ 0x25 ≤ 0x25 ∧ idle.busy = false ∧
    ({ waiting 0x30 with inbox := [.hostWrite 0 0x101] } : State).inbox = .hostWrite 0 0x101 :: [] := by decide

/-- The last element of a space and the first beyond it, in a byte buffer and in DIRMAP; the first missing
space. -/
theorem witness_HostBufferAccess : 1615 < Buf.tbuf.size nominal ∧ Buf.tbuf.size nominal ≤ 1616 ∧
    19799 < Buf.ibuf.size nominal ∧ 9999 < 10000 ∧ 10000 ≤ 10000 ∧ 6 ≤ 6 ∧ 7 ≤ 7 ∧ idle.busy = false ∧
    (waiting 0x30).busy = true ∧ Buf.tbuf ∈ [Buf.ack, .pbuf, .hbuf, .tbuf] ∧ Buf.ibuf ∈ [Buf.txf, .ibuf] ∧
    ({ idle with inbox := [.hostBufWrite 4 1615 7] } : State).inbox = .hostBufWrite 4 1615 7 :: [] ∧
    ({ idle with inbox := [.hostRead 0] } : State).inbox = .hostRead 0 :: [] ∧
    ({ idle with inbox := [.hostBufRead 6 0] } : State).inbox = .hostBufRead 6 0 :: [] := by
  refine ⟨by decide, by decide, by decide, by omega, by omega, by omega, by omega, by decide⟩

theorem witness_PresenceEdgeOnlyNotifies :
    ({ idle with inbox := [.presenceEdge] } : State).inbox = .presenceEdge :: [] ∧ idle.cfg.hasPresence = true ∧
    ({ idle with cfg := { nominal with hasPresence := false } } : State).cfg.hasPresence = false := by decide

theorem witness_ResetRestoresTable :
    ({ waiting 0x30 with inbox := [.reset] } : State).inbox = .reset :: [] := by decide

theorem witness_SimultaneousEventsTakenByRank : idle.inbox = [] := by decide

theorem witness_FpcNeverWritesOperands :
    (∃ e es t, ({ waiting 0x30 with inbox := [.tick] } : State).inbox = e :: es ∧ e.word = none ∧
      (∀ n v, e ≠ .hostWrite n v) ∧ e ≠ .reset ∧ step { waiting 0x30 with inbox := [.tick] } = .next t) ∧
    (∃ i ∈ [Instr.build, .run, .id2b, .decack, .enctpl, .decdir, .nextfree, .flipimg], ∃ t, exec i idle = .next t) :=
  ⟨⟨.tick, [], _, rfl, rfl, by simp, by simp, rfl⟩, ⟨.run, by decide, _, rfl⟩⟩

theorem witness_LogsOnlyGrow : ∃ t,
    ({ waiting 0x30 with st := .configuring, inbox := [.tpOpenOk] } : State).inbox = .tpOpenOk :: [] ∧
    step { waiting 0x30 with st := .configuring, inbox := [.tpOpenOk] } = .next t ∧
    EnvEvent.tpOpenOk ≠ .reset ∧ EnvEvent.tick ≠ .reset ∧ EnvEvent.tick ≠ .tpOpenOk :=
  ⟨_, rfl, rfl, by decide, by decide, by decide⟩

/-- A cycle in flight, about to receive its acknowledgment, meets every invariant and takes a step. -/
def inFlight : State := { waiting 0x30 with inbox := [.rxChunk 0 [0x30]] }

theorem witness_StepKeepsBuffersLegal : inFlight.BuffersLegal ∧ ∃ t, step inFlight = .next t := by
  refine ⟨⟨fun b => ?_, fun b => ?_, fun ids h => ?_, fun _ => rfl⟩, _, rfl⟩
  · cases b <;> decide
  · cases b <;> decide
  · cases h

theorem witness_StepKeepsSequencerLegal : inFlight.SequencerLegal ∧ ∃ t, step inFlight = .next t := by
  refine ⟨?_, _, rfl⟩
  constructor <;> decide

theorem witness_StepKeepsValuesInRange :
    inFlight.SequencerLegal ∧ inFlight.ValuesInRange ∧ ∃ t, step inFlight = .next t := by
  refine ⟨?_, ?_, _, rfl⟩
  · constructor <;> decide
  · constructor <;> decide

theorem witness_StepKeepsFrameLegal : inFlight.FrameLegal ∧ ∃ t, step inFlight = .next t := by
  refine ⟨⟨fun _ => ⟨frameBytes 0x30 zeros, rfl, by decide⟩, fun _ => ⟨frameBytes 0x30 zeros, rfl, by decide, rfl⟩⟩, _, rfl⟩

theorem witness_StepKeepsEventsLegal :
    let s := { inFlight with evt := 9, evlog := [(.presence, none), (.done, none)] }
    s.EventsLegal ∧ ∃ t, step s = .next t := by
  refine ⟨⟨fun k => ?_, fun c h => ?_⟩, _, rfl⟩
  · cases k
    · exact fun _ => ⟨none, by decide⟩
    · exact fun h => absurd rfl h
    · exact fun h => absurd rfl h
    · exact fun _ => ⟨none, by decide⟩
  · simp at h

theorem witness_StepKeepsPortsBracketed :
    inFlight.SequencerLegal ∧ inFlight.PortsBracketed ∧ ∃ t, step inFlight = .next t := by
  refine ⟨?_, rfl, _, rfl⟩
  constructor <;> decide

end Sys2Proof.Tests
end

section
/-! PROOFS. The scope obligations (`00_scope.md`): what a step takes from the queue, which events
complete, and what a host write of a plain register does. -/

namespace Sys2Proof

/-- The errors of bytes that are no command frame at all; the others are words the host can issue. -/
def DecodeError.notFrame : DecodeError → Bool
  | .badLength _ | .reservedNotZero _ | .checksumMismatch _ => true
  | .startNotSet | .illegalOp _ | .unknownCommand _ _ => false

end Sys2Proof

namespace Sys2Proof.Machine

/-! ### One step and one event -/

/-- With no event pending nothing changes (R10). -/
theorem step_of_inbox_nil {s : State} (h : s.inbox = []) : step s = .next s := by
  simp only [step, h]

/-- A step takes the next pending event off the queue. -/
theorem step_of_inbox_cons {s : State} {e : EnvEvent} {es : List EnvEvent} (h : s.inbox = e :: es) :
    step s = runEvent e { s with inbox := es } := by
  simp only [step, h]

/-- An event whose word decodes runs the instruction. -/
theorem runEvent_of_decode_ok {e : EnvEvent} {w : List Byte} {i : Instr} (hw : e.word = some w)
    (hd : decode w = .ok i) (s : State) : runEvent e s = exec i s := by
  simp only [runEvent, hw, hd]

theorem runEvent_of_decode_error {e : EnvEvent} {w : List Byte} {err : DecodeError}
    (hw : e.word = some w) (hd : decode w = .error err) (s : State) :
    runEvent e s = s.undecoded err e := by
  simp only [runEvent, hw, hd]

theorem runEvent_of_word_none {e : EnvEvent} (hw : e.word = none) (s : State) :
    runEvent e s = s.react e := by
  simp only [runEvent, hw]

/-- Only a write of register number 0, CTRL, carries an instruction word (R16). -/
theorem word_hostWrite_of_ne_zero {n : Nat} (hn : n ≠ 0) (v : BusWord) :
    (EnvEvent.hostWrite n v).word = none :=
  if_neg hn

/-- The step on a host write of any register but CTRL is that write. -/
theorem step_hostWrite_of_ne_zero {s : State} {n : Nat} {v : BusWord} {es : List EnvEvent} (hn : n ≠ 0)
    (h : s.inbox = .hostWrite n v :: es) :
    step s = .next (({ s with inbox := es } : State).hostWrite n v) := by
  rw [step_of_inbox_cons h, runEvent_of_word_none (word_hostWrite_of_ne_zero hn v), State.react]

/-! ### Which outcomes are a next state -/

/-- The outcome is a next state: the machine neither faulted nor refused. -/
def Completes (o : Host.Outcome State Fault Refusal) : Prop := ∃ t, o = .next t

@[simp] theorem completes_next (t : State) : Completes (.next t) := ⟨t, rfl⟩

@[simp] theorem not_completes_fault (f : Fault) : ¬ Completes (.fault f) := by
  simp [Completes]

@[simp] theorem not_completes_refused (r : Refusal) : ¬ Completes (.refused r) := by
  simp [Completes]

@[simp] theorem not_completes_notEnabled (e : EnvEvent) (s : State) : ¬ Completes (s.notEnabled e) :=
  not_completes_fault _

/-- No instruction faults or is refused: every request is answered in RESULT (R238). -/
theorem exec_completes (i : Instr) (s : State) : Completes (exec i s) := by
  cases i <;> exact ⟨_, rfl⟩

/-- A word the host can issue: it is an instruction, or it fails as a CTRL write or as a lawful frame of an
unassigned command. -/
def Issuable (w : List Byte) : Prop := ∀ err, decode w = .error err → err.notFrame = false

/-- An event whose word is no instruction completes unless its bytes are no command frame. -/
theorem undecoded_completes_iff {e : EnvEvent} {s : State} (hr : Completes (s.react e))
    (err : DecodeError) : Completes (s.undecoded err e) ↔ err.notFrame = false := by
  cases err <;> simp [State.undecoded, DecodeError.notFrame, hr]

/-- An event that carries a word completes exactly when the word is one the host can issue. -/
theorem runEvent_completes_iff_issuable {e : EnvEvent} {s : State} {w : List Byte}
    (hw : e.word = some w) (hr : Completes (s.react e)) : Completes (runEvent e s) ↔ Issuable w := by
  cases hd : decode w with
  | ok i => simp [runEvent_of_decode_ok hw hd, exec_completes, Issuable, hd]
  | error err => simp [runEvent_of_decode_error hw hd, undecoded_completes_iff hr, Issuable, hd]

/-- A transport event completes exactly where a rule takes it, any other event always (R147). -/
theorem react_completes_iff {e : EnvEvent} (hw : e.word = none) (s : State) :
    Completes (s.react e) ↔ e.enabledIn s.st = true := by
  cases e with
  | tpOpenOk | tpOpenFail | txWritten | rxChunk b bs =>
    cases hs : s.st <;> simp [State.react, EnvEvent.enabledIn, hs]
  | hostCommand f => cases hw
  | _ => simp [State.react, EnvEvent.enabledIn]

/-! ### The words events carry -/

/-- An operation number fails to decode only for being unassigned (R84). -/
theorem notFrame_of_decodeOp {op : BitVec 4} {err : DecodeError} (h : decodeOp op = .error err) :
    err.notFrame = false := by
  unfold decodeOp at h
  repeat' split at h
  all_goals cases h
  rfl

/-- Every CTRL write can be issued: it fails to decode only for START = 0 or an unassigned OP (R16). -/
theorem issuable_ctrlWord (v : BusWord) : Issuable (ctrlWord v) := by
  intro err h
  rw [ctrlWord, decode, decodeCtrl] at h
  split at h
  · exact notFrame_of_decodeOp h
  · cases h; rfl

/-- The word a host write carries is the CTRL word of its value. -/
theorem eq_ctrlWord_of_word {n : Nat} {v : BusWord} {w : List Byte}
    (h : (EnvEvent.hostWrite n v).word = some w) : w = ctrlWord v := by
  by_cases hn : n = 0
  · subst hn; exact (Option.some.inj h).symm
  · rw [word_hostWrite_of_ne_zero hn] at h; cases h

/-- The bytes of a frame vector, one by one. -/
theorem toList_frameVector (f : Vector Byte 12) :
    f.toList = [f[0], f[1], f[2], f[3], f[4], f[5], f[6], f[7], f[8], f[9], f[10], f[11]] := by
  obtain ⟨⟨l⟩, hl⟩ := f
  match l, hl with
  | [_, _, _, _, _, _, _, _, _, _, _, _], _ => rfl

theorem decode_frameVector (f : Vector Byte 12) :
    decode f.toList = decodeFrame f[1] (frameOperands f) f[10] f[11] := by
  rw [toList_frameVector]; rfl

/-- Twelve bytes are a lawful frame when the reserved byte is 0 and the last the checksum (R102). -/
theorem frameLawful_frameVector (f : Vector Byte 12) : frameLawful f.toList = true ↔
    f[10] = 0 ∧ f[11] = checksum (f[1] :: (frameOperands f).params) := by
  rw [toList_frameVector]
  simp [frameLawful, reservedByteOk, checksumOk, FrameArgs.params, frameOperands]

/-- A frame is one the host can issue exactly when it is lawful (R84, R102). -/
theorem issuable_frame_iff (f : Vector Byte 12) : Issuable f.toList ↔ frameLawful f.toList = true := by
  rw [frameLawful_frameVector, Issuable, decode_frameVector, decodeFrame]
  by_cases hres : f[10] = 0#8
  · by_cases hsum : f[11] = checksum (f[1] :: (frameOperands f).params)
    · cases Command.ofByte f[1] <;> simp [hres, hsum, DecodeError.notFrame]
    · simp [hres, hsum, DecodeError.notFrame]
  · simp [hres, DecodeError.notFrame]

/-- An event completes exactly when it is enabled in the sequencer state (R5, R147). -/
theorem runEvent_completes_iff (e : EnvEvent) (s : State) :
    Completes (runEvent e s) ↔ e.enabledIn s.st = true := by
  cases hw : e.word with
  | none => rw [runEvent_of_word_none hw, react_completes_iff hw]
  | some w =>
    cases e with
    | hostWrite n v =>
      obtain rfl := eq_ctrlWord_of_word hw
      rw [runEvent_completes_iff_issuable hw (completes_next _)]
      simp [issuable_ctrlWord, EnvEvent.enabledIn]
    | hostCommand f =>
      obtain rfl : f.toList = w := Option.some.inj hw
      rw [runEvent_completes_iff_issuable hw (completes_next _), issuable_frame_iff, EnvEvent.enabledIn]
    | _ => cases hw

/-! ### The host's registers -/

/-- The number of a register in R26's table. -/
def HostReg.number : HostReg → Nat
  | .ctrl => 0x00
  | .status => 0x01
  | .result => 0x02
  | .evt => 0x03
  | .evtEn => 0x04
  | .evtCode => 0x05
  | .channel => 0x06
  | .baud => 0x07
  | .x i => 0x08 + i
  | .idIn => 0x11
  | .fmt => 0x12
  | .hlen => 0x13
  | .entryCount => 0x14
  | .expectLen => 0x15
  | .txlen => 0x16
  | .payloadRetryLimit => 0x17
  | .errcode => 0x18
  | .param1 => 0x19
  | .param2 => 0x1A
  | .declen => 0x1B
  | .rlen => 0x1C
  | .idLo => 0x1D
  | .idHi => 0x1E
  | .nextFree => 0x1F
  | .dirCount => 0x20
  | .lcmd => 0x21
  | .retry => 0x22
  | .pretry => 0x23
  | .wtimer => 0x24

/-- A register is found at its own number only. -/
theorem eq_number_of_hostReg {n : Nat} {r : HostReg} (h : hostReg n = some r) : n = r.number := by
  unfold hostReg at h
  split at h <;> cases h <;> rfl

theorem readReg_of_hostReg {n : Nat} {r : HostReg} (h : hostReg n = some r) (s : State) :
    s.readReg n = s.regValue r := by
  simp only [State.readReg, h]

theorem readReg_of_hostReg_none {n : Nat} (h : hostReg n = none) (s : State) : s.readReg n = 0 := by
  simp only [State.readReg, h]

/-- While BUSY = 0 a write reaches its register. -/
theorem hostWrite_of_idle {s : State} (hb : s.busy = false) {n : Nat} {r : HostReg}
    (h : hostReg n = some r) (v : BusWord) : s.hostWrite n v = s.regStore r v := by
  simp only [State.hostWrite, h, State.whenIdle_of_idle hb, ite_self]

/-- A write of one register leaves what every other reads as. -/
theorem regValue_regStore_of_ne (s : State) {r q : HostReg} (h : q ≠ r) (v : BusWord) :
    (s.regStore r v).regValue q = s.regValue q := by
  cases r with
  | x i =>
    cases q with
    | x j =>
      have hij : i.val ≠ j.val := fun e => h (congrArg HostReg.x (Fin.ext e.symm))
      exact congrArg (BitVec.setWidth 32) (Vector.getElem_set_ne i.isLt j.isLt hij)
    | _ => rfl
  | ctrl | result | evtCode | errcode | param1 | param2 | declen | idLo | idHi | nextFree | dirCount
  | lcmd | retry | pretry | wtimer => rfl
  | _ =>
    cases q
    all_goals first | rfl | exact absurd rfl h

/-- A write of one register number leaves what every other number reads as. -/
theorem readReg_regStore_of_ne (s : State) {n m : Nat} {r : HostReg} (hr : hostReg n = some r)
    (h : m ≠ n) (v : BusWord) : (s.regStore r v).readReg m = s.readReg m := by
  cases hq : hostReg m with
  | none => rw [readReg_of_hostReg_none hq, readReg_of_hostReg_none hq]
  | some q =>
    have hne : q ≠ r := by
      rintro rfl
      exact h ((eq_number_of_hostReg hq).trans (eq_number_of_hostReg hr).symm)
    rw [readReg_of_hostReg hq, readReg_of_hostReg hq, regValue_regStore_of_ne s hne]

/-- No register write touches a buffer. -/
theorem byteAt_regStore (s : State) (r : HostReg) (v : BusWord) (b : Buf) (i : Nat) :
    (s.regStore r v).byteAt b i = s.byteAt b i := by
  refine State.byteAt_congr ?_ ?_ i
  · cases r <;> cases b <;> rfl
  · cases r <;> rfl

/-! ### The plainly writable registers -/

/-- The width of a register whose write replaces its value; none for the read-only registers, CTRL and the
write-1-to-clear STATUS and EVT (R26). -/
def HostReg.plainWidth : HostReg → Option Nat
  | .evtEn => some 4
  | .channel | .x _ => some 8
  | .fmt => some 1
  | .idIn | .hlen | .entryCount | .txlen | .payloadRetryLimit => some 16
  | .baud | .expectLen | .rlen => some 32
  | .ctrl | .status | .result | .evt | .evtCode | .errcode | .param1 | .param2 | .declen | .idLo | .idHi
  | .nextFree | .dirCount | .lcmd | .retry | .pretry | .wtimer => none

/-- A value cut to a register's width and read on the bus. -/
theorem toNat_setWidth_setWidth {w : Nat} (hw : w ≤ 32) (v : BusWord) :
    ((v.setWidth w).setWidth 32).toNat = v.toNat % 2 ^ w := by
  rw [BitVec.toNat_setWidth_of_le hw, BitVec.toNat_setWidth]

/-- A plain register reads back the low bits of the value written. -/
theorem regValue_regStore_same (s : State) {r : HostReg} {w : Nat} (hw : r.plainWidth = some w)
    (v : BusWord) : ((s.regStore r v).regValue r).toNat = v.toNat % 2 ^ w := by
  cases r with
  | x i =>
    cases hw
    have hx : ((s.regStore (.x i) v).regValue (.x i)) = (v.setWidth 8).setWidth 32 :=
      congrArg (BitVec.setWidth 32) (Vector.getElem_set_self _)
    rw [hx, toNat_setWidth_setWidth (by decide)]
  | baud | expectLen | rlen =>
    cases hw
    exact (Nat.mod_eq_of_lt v.isLt).symm
  | evtEn | channel | fmt | idIn | hlen | entryCount | txlen | payloadRetryLimit =>
    cases hw
    exact toNat_setWidth_setWidth (by decide) v
  | _ => cases hw

/-- A write of a plain register changes none but the plain registers. -/
theorem regStore_frame (s : State) {r : HostReg} {w : Nat} (hw : r.plainWidth = some w) (v : BusWord) :
    { s.regStore r v with
      evtEn := s.evtEn, channel := s.channel, baud := s.baud, x := s.x, idIn := s.idIn, fmt := s.fmt
      hlen := s.hlen, entryCount := s.entryCount, expectLen := s.expectLen, txlen := s.txlen
      payloadRetryLimit := s.payloadRetryLimit, rlen := s.rlen } = s := by
  cases r with
  | ctrl | status | result | evt | evtCode | errcode | param1 | param2 | declen | idLo | idHi | nextFree
  | dirCount | lcmd | retry | pretry | wtimer => cases hw
  | _ => rfl

/-- The numbers of the twenty plainly writable registers, each with its width (R26). -/
def plainRegs : List (Nat × Nat) :=
  [(0x04, 4), (0x06, 8), (0x07, 32), (0x08, 8), (0x09, 8), (0x0A, 8), (0x0B, 8), (0x0C, 8), (0x0D, 8),
    (0x0E, 8), (0x0F, 8), (0x10, 8), (0x11, 16), (0x12, 1), (0x13, 16), (0x14, 16), (0x15, 32), (0x16, 16),
    (0x17, 16), (0x1C, 32)]

theorem plainWidth_of_mem_plainRegs :
    ∀ p ∈ plainRegs, (hostReg p.1).bind HostReg.plainWidth = some p.2 := by
  decide

/-! ### The obligations -/

/-- Settles O5: the queue's head is taken, its word decoded, and the instruction run. -/
theorem stepRunsDecodedInstruction : Obligations.StepRunsDecodedInstruction := by
  intro s e es w i hs hw hd _
  rw [step_of_inbox_cons hs, runEvent_of_decode_ok hw hd]

/-- Settles O6, by the kind of event: those without a word react, those with one are decoded first. -/
theorem stepCompletesExactlyOnEnabledEvents : Obligations.StepCompletesExactlyOnEnabledEvents := by
  intro s
  refine ⟨step_of_inbox_nil, fun e es hs => ?_⟩
  rw [step_of_inbox_cons hs]
  exact runEvent_completes_iff e { s with inbox := es }

/-- Settles O44: the write reaches the register of that number, and the rules for one register write
give the rest. -/
theorem hostWriteKeepsLowBits : Obligations.HostWriteKeepsLowBits := by
  refine ⟨fun s n v es hn hs => step_hostWrite_of_ne_zero hn hs, fun s n w v hb hmem => ?_⟩
  obtain ⟨r, hr, hw⟩ := Option.bind_eq_some_iff.1 (plainWidth_of_mem_plainRegs (n, w) hmem)
  rw [hostWrite_of_idle hb hr]
  refine ⟨?_, fun m hm => readReg_regStore_of_ne s hr hm v, byteAt_regStore s r v, regStore_frame s hw v⟩
  rw [readReg_of_hostReg hr]
  exact regValue_regStore_same s hw v

end Sys2Proof.Machine
end

section
/-! PROOFS. What the ends of operations and cycles leave as it was (`60_exceptions.md` R237, R238,
`44_device_facade.md` R198, R200), said once for all of them. -/

namespace Sys2Proof.Machine

/-- `t` is `s` but for what an end writes: RESULT, ST, BUSY, DEGRADED, EVT, EVT_CODE, EVLOG and the port
log. -/
def SameButEnd (s t : State) : Prop :=
  t = { s with
    resultClass := t.resultClass, resultCode := t.resultCode, st := t.st, busy := t.busy
    degraded := t.degraded, evt := t.evt, evtCode := t.evtCode, evlog := t.evlog, portlog := t.portlog }

theorem sameButEnd_complete (s : State) : SameButEnd s s.complete := by
  rw [State.complete_eq]; rfl

theorem sameButEnd_refuse (s : State) (c : Byte) : SameButEnd s (s.refuse c) := by
  rw [State.refuse_eq]; rfl

theorem sameButEnd_endCycle (s : State) (q : SeqState) (r : ResultClass) (c : Byte) :
    SameButEnd s (s.endCycle q r c) := by
  rw [State.endCycle_eq]; rfl

theorem sameButEnd_normalEnd (s : State) : SameButEnd s s.normalEnd :=
  sameButEnd_endCycle s _ _ _

theorem sameButEnd_deviceErrorEnd (s : State) : SameButEnd s s.deviceErrorEnd := by
  rw [State.deviceErrorEnd_eq]; rfl

theorem sameButEnd_raiseFault (s : State) (c : ResultClass) : SameButEnd s (s.raiseFault c) := by
  rw [State.raiseFault, State.endCycle_eq, State.markFault]
  split <;> rfl

end Sys2Proof.Machine
end

section
/-! PROOFS. The buffers of the state (`10_state.md` R22, R23, `42_transport_session.md` R139): what every
step keeps of them, and where the bytes of a received chunk land. -/

namespace Sys2Proof.Machine

/-! ### The invariant reads the buffers and the directory only -/

/-- The fields the buffer invariant reads. -/
def State.storage (s : State) : (Buf → Memory) × Params × Option (List Nat) × BitVec 14 :=
  (s.bufOf, s.cfg, s.dirmap, s.dirCount)

theorem State.BuffersLegal.of_storage_eq {s t : State} (h : s.BuffersLegal) (e : t.storage = s.storage) :
    t.BuffersLegal := by
  simp only [State.storage, Prod.mk.injEq] at e
  obtain ⟨hbuf, hcfg, hmap, hcount⟩ := e
  exact ⟨by simpa [hbuf] using h.canonical, by simpa [hbuf, hcfg] using h.inside,
    by simpa [hmap, hcount] using h.directory, by simpa [hmap, hcount] using h.noDirectory⟩

theorem SameButEnd.storage_eq {s t : State} (h : SameButEnd s t) : t.storage = s.storage := by
  rw [h]; rfl

theorem State.storage_ackDecode (s : State) (c : Byte) : (s.ackDecode c).storage = s.storage := rfl

/-- No register write touches a buffer or the directory. -/
theorem State.storage_regStore (s : State) (r : HostReg) (v : BusWord) :
    (s.regStore r v).storage = s.storage := by
  cases r <;> rfl

/-! ### Writes inside a buffer -/

/-- A write that stays inside its buffer keeps the invariant. -/
theorem State.BuffersLegal.writeBytes {s : State} (h : s.BuffersLegal) {b : Buf} {n : Nat}
    {bs : List Byte} (hb : n + bs.length ≤ b.size s.cfg) : (s.writeBytes b n bs).BuffersLegal where
  canonical := State.wf_writeBytes h.canonical b n bs
  inside := by simpa using State.within_writeBytes h.inside hb
  directory := by simpa using h.directory
  noDirectory := by simpa using h.noDirectory

/-- A frame fits TXF. -/
theorem State.BuffersLegal.latchFrame {s : State} (h : s.BuffersLegal) : s.latchFrame.BuffersLegal :=
  h.writeBytes (b := .txf) (n := 0) (bs := s.frame) (Nat.le_refl 12)

/-- An output row ends inside IBUF: the last begins at 132 * 149. -/
theorem State.BuffersLegal.flipRow {s : State} (h : s.BuffersLegal) (i : Nat) :
    (s.flipRow i).BuffersLegal := by
  refine h.writeBytes ?_
  rw [State.length_bytesFrom]
  show 132 * (149 - i) + 130 ≤ 19800
  omega

theorem State.BuffersLegal.foldl_flipRow (rows : List Nat) {s : State} (h : s.BuffersLegal) :
    (rows.foldl State.flipRow s).BuffersLegal := by
  induction rows generalizing s with
  | nil => exact h
  | cons i rows ih => exact ih (h.flipRow i)

/-- A received byte goes to ACK below index 12, to PBUF below PBUF_CAP, or nowhere (R139). -/
theorem State.BuffersLegal.storeByte {s : State} (h : s.BuffersLegal) (b : Byte) :
    (s.storeByte b).BuffersLegal := by
  rcases s.storeByte_cases b with ⟨hn, e⟩ | ⟨_, hn, e⟩ | ⟨_, _, e⟩
  · rw [e]
    exact (h.writeBytes (b := .ack) (n := s.rlen.toNat) (bs := [b]) hn).of_storage_eq rfl
  · rw [e]
    exact (h.writeBytes (b := .pbuf) (n := s.rlen.toNat - 12) (bs := [b]) hn).of_storage_eq rfl
  · rw [e]
    exact h.of_storage_eq rfl

theorem State.BuffersLegal.store {s : State} (h : s.BuffersLegal) (bs : List Byte) :
    (s.store bs).BuffersLegal := by
  have fold : (bs.foldl State.storeByte s).BuffersLegal := by
    induction bs generalizing s with
    | nil => exact h
    | cons b bs ih => exact ih (h.storeByte b)
  exact fold.of_storage_eq rfl

/-- Decoding an acknowledgment just stored touches no buffer. -/
theorem State.BuffersLegal.acknowledged {s d : State} (h : s.BuffersLegal) {bs : List Byte} {c : Byte}
    (hd : d = (s.store bs).ackDecode c) : d.BuffersLegal :=
  (h.store bs).of_storage_eq (by rw [hd, State.storage_ackDecode])

/-! ### The decoded directory -/

/-- Inserting an id keeps the list increasing (R177). -/
theorem pairwise_insertId {l : List Nat} (h : l.Pairwise (· < ·)) (v : Nat) :
    (insertId v l).Pairwise (· < ·) := by
  induction l with
  | nil => exact List.pairwise_singleton _ _
  | cons i is ih =>
    obtain ⟨hi, his⟩ := List.pairwise_cons.1 h
    unfold insertId
    split
    · next hv => exact List.pairwise_cons.2 ⟨by simpa [hv] using fun j hj => hv.trans (hi j hj), h⟩
    · split
      · exact h
      · refine List.pairwise_cons.2 ⟨fun j hj => ?_, ih his⟩
        rcases (mem_insertId v j is).1 hj with rfl | hj
        · omega
        · exact hi j hj

/-- A list of ids as DECDIR leaves it in DIRMAP: increasing and below 10000 (R174, R177). -/
def IdsLegal (l : List Nat) : Prop := l.Pairwise (· < ·) ∧ ∀ i ∈ l, i < Config.dirSize

theorem idsLegal_enterId {l : List Nat} (h : IdsLegal l) {e : Nat × Bool} (he : e.1 < Config.dirSize) :
    IdsLegal (enterId l e) := by
  obtain ⟨hp, hlt⟩ := h
  unfold enterId
  split
  · refine ⟨pairwise_insertId hp e.1, fun i hi => ?_⟩
    rcases (mem_insertId e.1 i l).1 hi with rfl | hi
    · exact he
    · exact hlt i hi
  · exact ⟨hp, hlt⟩

theorem idsLegal_foldl_enterId {es : List (Nat × Bool)} (he : ∀ e ∈ es, e.1 < Config.dirSize)
    {l : List Nat} (h : IdsLegal l) : IdsLegal (es.foldl enterId l) := by
  induction es generalizing l with
  | nil => exact h
  | cons e es ih =>
    obtain ⟨hhead, htail⟩ := List.forall_mem_cons.1 he
    exact ih htail (idsLegal_enterId h hhead)

/-- Four decimal digits are below 10000 (R112). -/
theorem State.dirEntry_lt (s : State) (k : Nat) : (s.dirEntry k).1 < Config.dirSize :=
  Nat.lt_succ_of_le (pairval_le _ _)

theorem State.idsLegal_decodedIds (s : State) : IdsLegal s.decodedIds := by
  refine idsLegal_foldl_enterId (fun e he => ?_) ⟨List.Pairwise.nil, by simp⟩
  obtain ⟨k, -, rfl⟩ := List.mem_map.1 he
  exact s.dirEntry_lt k

/-- There are no more than 10000 ids. -/
theorem IdsLegal.length_le {l : List Nat} (h : IdsLegal l) : l.length ≤ Config.dirSize := by
  obtain ⟨hp, hlt⟩ := h
  have hnodup : l.Nodup := hp.imp Nat.ne_of_lt
  have hsub : l ⊆ List.range Config.dirSize := fun i hi => List.mem_range.2 (hlt i hi)
  simpa using (List.subperm_of_subset hnodup hsub).length_le

/-- The count of the decoded ids fits DIR_COUNT (R22). -/
theorem State.toNat_dirCount_decoded (s : State) :
    (BitVec.ofNat 14 s.decodedIds.length).toNat = s.decodedIds.length := by
  have hle : s.decodedIds.length ≤ 10000 := s.idsLegal_decodedIds.length_le
  rw [BitVec.toNat_ofNat]
  exact Nat.mod_eq_of_lt (by omega)

/-- DECDIR leaves an increasing directory with its count. -/
theorem State.BuffersLegal.decoded {s : State} (h : s.BuffersLegal) :
    ({ s with dirmap := some s.decodedIds, dirCount := BitVec.ofNat 14 s.decodedIds.length }
      : State).BuffersLegal where
  canonical := h.canonical
  inside := h.inside
  directory := by
    rintro _ ⟨⟩
    obtain ⟨hp, hlt⟩ := s.idsLegal_decodedIds
    exact ⟨hp, hlt, s.toNat_dirCount_decoded⟩
  noDirectory := by rintro ⟨⟩

/-! ### Every step -/

/-- After Reset no buffer lists an index and no directory is decoded (R30). -/
theorem State.buffersLegal_onReset (s : State) : s.onReset.BuffersLegal where
  canonical := by rintro (_ | _) <;> exact List.Pairwise.nil
  inside := by rintro (_ | _) c ⟨⟩
  directory := by rintro _ ⟨⟩
  noDirectory _ := rfl

/-- The operands a start of RUN finds stand in no buffer. -/
theorem Loaded.storage_eq {s v : State} (h : Loaded s v) : v.storage = s.storage := by
  cases h <;> rfl

theorem SameButEnd.buffersLegal {s t : State} (e : SameButEnd s t) (h : s.BuffersLegal) :
    t.BuffersLegal :=
  h.of_storage_eq e.storage_eq

/-- Every reaction keeps the buffers legal. -/
theorem Reaction.keeps_buffersLegal {s t : State} {e : EnvEvent} (hr : Reaction s e t)
    (h : s.BuffersLegal) : t.BuffersLegal := by
  cases hr with
  | ignored => exact h
  | refused _ _ _ v hv => exact (sameButEnd_refuse v _).buffersLegal (h.of_storage_eq hv.storage_eq)
  | accepted _ _ _ v hv => exact (h.of_storage_eq hv.storage_eq).latchFrame.of_storage_eq rfl
  | build => exact (sameButEnd_complete _).buffersLegal h.latchFrame
  | decack => exact (sameButEnd_complete _).buffersLegal (h.of_storage_eq (s.storage_ackDecode _))
  | enctpl _ _ _ rec c hl =>
    have hfits : 0 + rec.length ≤ Buf.tbuf.size s.cfg := (Nat.zero_add _).trans_le hl
    exact (sameButEnd_complete _).buffersLegal ((h.writeBytes hfits).of_storage_eq rfl)
  | decdir => exact (sameButEnd_complete _).buffersLegal (h.decoded.of_storage_eq rfl)
  | id2b | nextfree => exact (sameButEnd_complete _).buffersLegal (h.of_storage_eq rfl)
  | flipimg _ _ _ rows m hm =>
    have hrows := h.foldl_flipRow rows
    rw [State.foldl_flipRow_eq, ← hm] at hrows
    exact (sameButEnd_complete _).buffersLegal hrows
  | regWrite r n v => exact h.of_storage_eq (s.storage_regStore r v)
  | bufWrite b i v hi => exact h.writeBytes hi
  | openFail | writeTimeout | ackTimeout | payloadTimeout =>
    exact (sameButEnd_raiseFault _ _).buffersLegal (h.of_storage_eq rfl)
  | writtenBaud => exact (sameButEnd_normalEnd s).buffersLegal h
  | chunkAck b bs | chunkPayload b bs => exact h.store _
  | ackError b bs _ d hd => exact (sameButEnd_deviceErrorEnd d).buffersLegal (h.acknowledged hd)
  | ackEnd b bs _ d hd => exact (sameButEnd_normalEnd d).buffersLegal (h.acknowledged hd)
  | ackPayload b bs _ d hd => exact (h.acknowledged hd).of_storage_eq rfl
  | payloadEnd b bs => exact (sameButEnd_normalEnd _).buffersLegal (h.store _)
  | reset => exact s.buffersLegal_onReset
  | flagged | read | openOk | written | tickSending | tickWindow | windowAck | windowUnbounded
  | windowPayload | presence => exact h.of_storage_eq rfl

/-- Settles O55: a step takes an event off the queue, and every reaction to it keeps the buffers legal. -/
theorem stepKeepsBuffersLegal : Obligations.StepKeepsBuffersLegal := by
  intro s t h hstep
  rcases step_cases hstep with ⟨_, rfl⟩ | ⟨e, es, _, hr⟩
  · exact h
  · exact hr.keeps_buffersLegal (h.of_storage_eq rfl)

end Sys2Proof.Machine
end

section
/-! PROOFS. The host's writes (`10_state.md` R16, R25, R26): which CTRL values start an operation, what a
refused start and a write while BUSY = 1 do, and that a device command is its eleven writes. -/

namespace Sys2Proof.Machine

/-! ### CTRL values -/

theorem ctrlWord_start (v : BusWord) : ((v >>> 8).setWidth 8).getLsbD 0 = v.getLsbD 8 := by
  simp

/-- OP is the low four bits of the value written (R16). -/
theorem ctrlWord_op (v : BusWord) : ((v.setWidth 8).extractLsb' 0 4).toNat = v.toNat % 16 := by
  simp only [BitVec.extractLsb'_toNat, BitVec.toNat_setWidth, Nat.shiftRight_zero]
  omega

/-- The bytes of a CTRL write decode as OP when START = 1 (R16). -/
theorem decode_ctrlWord (v : BusWord) : decode (ctrlWord v) =
    if v.getLsbD 8 then decodeOp ((v.setWidth 8).extractLsb' 0 4) else .error .startNotSet := by
  rw [← ctrlWord_start]
  rfl

/-- The eight operation numbers, and no other, select an operation (R84, R90). -/
theorem decodeOp_eq_ok_iff (op : BitVec 4) (i : Instr) : decodeOp op = .ok i ↔
    (op.toNat = 1 ∧ i = .build) ∨ (op.toNat = 2 ∧ i = .run) ∨ (op.toNat = 3 ∧ i = .id2b) ∨
    (op.toNat = 4 ∧ i = .decack) ∨ (op.toNat = 5 ∧ i = .enctpl) ∨ (op.toNat = 6 ∧ i = .decdir) ∨
    (op.toNat = 7 ∧ i = .nextfree) ∨ (op.toNat = 8 ∧ i = .flipimg) := by
  have hop : ∀ k : Nat, k < 16 → (op = BitVec.ofNat 4 k ↔ op.toNat = k) := fun k hk => by
    rw [BitVec.toNat_eq, BitVec.toNat_ofNat, Nat.mod_eq_of_lt hk]
  unfold decodeOp
  repeat' split
  all_goals simp_all [eq_comm]

/-- OP 0 and 9 to 15 are refused by number (R84). -/
theorem decodeOp_of_unassigned {op : BitVec 4} (h : op.toNat = 0 ∨ 9 ≤ op.toNat) :
    decodeOp op = .error (.illegalOp op) := by
  cases hd : decodeOp op with
  | ok i =>
    have := (decodeOp_eq_ok_iff op i).1 hd
    omega
  | error err =>
    unfold decodeOp at hd
    repeat' split at hd
    all_goals cases hd
    rfl

/-- Settles O3, from the two fields of CTRL the decoder reads. -/
theorem ctrlWriteSelectsOperation : Obligations.CtrlWriteSelectsOperation := by
  intro v i
  rw [decode_ctrlWord, ← ctrlWord_op, ← decodeOp_eq_ok_iff]
  split <;> simp_all

/-! ### Starts -/

/-- A CTRL write of a value that decodes to an error does what the error says. -/
theorem step_ctrl_of_error {s : State} {v : BusWord} {es : List EnvEvent} {err : DecodeError}
    (h : s.inbox = .hostWrite 0 v :: es) (hd : decode (ctrlWord v) = .error err) :
    step s = ({ s with inbox := es } : State).undecoded err (.hostWrite 0 v) := by
  rw [step_of_inbox_cons h]
  exact runEvent_of_decode_error rfl hd _

theorem step_ctrl_of_ok {s : State} {v : BusWord} {es : List EnvEvent} {i : Instr}
    (h : s.inbox = .hostWrite 0 v :: es) (hd : decode (ctrlWord v) = .ok i) :
    step s = exec i { s with inbox := es } := by
  rw [step_of_inbox_cons h]
  exact runEvent_of_decode_ok rfl hd _

theorem decode_ctrlWord_of_unassigned {v : BusWord} (hs : v.getLsbD 8 = true)
    (hop : v.toNat % 16 = 0 ∨ 9 ≤ v.toNat % 16) :
    ∃ op, decode (ctrlWord v) = .error (.illegalOp op) := by
  rw [← ctrlWord_op] at hop
  exact ⟨_, by rw [decode_ctrlWord, if_pos hs, decodeOp_of_unassigned hop]⟩

theorem decode_ctrlWord_of_no_start {v : BusWord} (hs : v.getLsbD 8 = false) :
    decode (ctrlWord v) = .error .startNotSet := by
  rw [decode_ctrlWord, hs]
  rfl

/-- While BUSY = 0 an unassigned operation number is refused with code 0x01 (R201). -/
theorem illegalStart_of_idle {s : State} (hb : s.busy = false) : s.illegalStart =
    { s with resultClass := .illegalRequest, resultCode := 0x01, evt := s.evt ||| 1,
             evlog := s.evlog ++ [(.done, none)] } := by
  rw [State.illegalStart, State.whenIdle_of_idle hb, State.refuse_eq]

/-- While BUSY = 0 a register write of CTRL stores nothing (R16). -/
theorem hostWrite_ctrl_of_idle {s : State} (hb : s.busy = false) (v : BusWord) : s.hostWrite 0 v = s := by
  rw [hostWrite_of_idle (r := .ctrl) hb rfl]
  rfl

/-- Settles O12: an unassigned OP is refused, and a CTRL write without START stores nothing. -/
theorem unassignedOperationRefused : Obligations.UnassignedOperationRefused := by
  intro s es v hb hs
  refine ⟨fun hstart hop => ?_, fun hstart => ?_⟩
  · obtain ⟨op, hd⟩ := decode_ctrlWord_of_unassigned hstart hop
    rw [step_ctrl_of_error hs hd]
    exact congrArg Host.Outcome.next (illegalStart_of_idle (s := { s with inbox := es }) hb)
  · rw [step_ctrl_of_error hs (decode_ctrlWord_of_no_start hstart)]
    exact congrArg Host.Outcome.next (hostWrite_ctrl_of_idle (s := { s with inbox := es }) hb v)

/-- The gate of every instruction (R25, R216). -/
theorem exec_eq_whenIdle (i : Instr) (s : State) : ∃ act, exec i s = .next (s.whenIdle act) := by
  cases i <;> exact ⟨_, rfl⟩

/-- Settles O11: every instruction passes the gate first. -/
theorem startIgnoredWhileBusy : Obligations.StartIgnoredWhileBusy := by
  intro i s hb
  obtain ⟨act, h⟩ := exec_eq_whenIdle i s
  rw [h, State.whenIdle_of_busy hb]

/-! ### Writes while BUSY = 1 -/

theorem hostReg_of_ge {n : Nat} (h : 0x25 ≤ n) : hostReg n = none := by
  cases hr : hostReg n with
  | none => rfl
  | some r =>
    have hn : n = r.number := eq_number_of_hostReg hr
    have hlt : r.number < 0x25 := by
      cases r with
      | x i => show 0x08 + i.val < 0x25; omega
      | _ => decide
    omega

/-- Only STATUS, EVT and EVT_EN stay open (R25). -/
theorem openWhileBusy_iff_number (r : HostReg) :
    r.openWhileBusy = true ↔ r.number = 0x01 ∨ r.number = 0x03 ∨ r.number = 0x04 := by
  cases r with
  | x i => simp only [HostReg.openWhileBusy, HostReg.number, Bool.false_eq_true, false_iff]; omega
  | _ => decide

theorem hostWrite_of_no_reg {n : Nat} (h : hostReg n = none) (s : State) (v : BusWord) :
    s.hostWrite n v = s.whenIdle fun s => s := by
  simp only [State.hostWrite, h]

/-- While BUSY = 1 a write of any other number is ignored and flagged (R25). -/
theorem hostWrite_of_busy {s : State} (hb : s.busy = true) {n : Nat} (h1 : n ≠ 0x01) (h3 : n ≠ 0x03)
    (h4 : n ≠ 0x04) (v : BusWord) : s.hostWrite n v = { s with wBusyViol := true } := by
  cases hr : hostReg n with
  | none => rw [hostWrite_of_no_reg hr, State.whenIdle_of_busy hb]
  | some r =>
    have hclosed : ¬ r.openWhileBusy = true := by
      rw [openWhileBusy_iff_number, ← eq_number_of_hostReg hr]
      simp [h1, h3, h4]
    simp only [State.hostWrite, hr, if_neg hclosed, State.whenIdle_of_busy hb]

/-- While BUSY = 1 a word the host can issue in a CTRL write, but that starts nothing, is flagged. -/
theorem undecoded_ctrl_of_busy {s : State} (hb : s.busy = true) {err : DecodeError}
    (hi : err.notFrame = false) (v : BusWord) :
    s.undecoded err (.hostWrite 0 v) = .next { s with wBusyViol := true } := by
  cases err with
  | startNotSet | unknownCommand cmd a =>
    exact congrArg _ (hostWrite_of_busy hb (by decide) (by decide) (by decide) v)
  | illegalOp op => exact congrArg _ (State.whenIdle_of_busy hb _)
  | badLength _ | reservedNotZero _ | checksumMismatch _ => cases hi

/-- While BUSY = 1 every CTRL write is ignored and flagged, whatever its value (R25). -/
theorem step_ctrl_of_busy {s : State} (hb : s.busy = true) {v : BusWord} {es : List EnvEvent}
    (hs : s.inbox = .hostWrite 0 v :: es) :
    step s = .next { s with wBusyViol := true, inbox := es } := by
  cases hd : decode (ctrlWord v) with
  | ok i =>
    rw [step_ctrl_of_ok hs hd]
    exact startIgnoredWhileBusy i { s with inbox := es } hb
  | error err =>
    rw [step_ctrl_of_error hs hd]
    exact undecoded_ctrl_of_busy (s := { s with inbox := es }) hb (issuable_ctrlWord v err hd) v

/-- Settles O45: the gate for a busy block, and the numbers no register has. -/
theorem hostWriteIgnoredWhileBusy : Obligations.HostWriteIgnoredWhileBusy := by
  intro s n v
  refine ⟨fun hb h1 h3 h4 => hostWrite_of_busy hb h1 h3 h4 v, fun es hb hs => step_ctrl_of_busy hb hs,
    fun hn => ⟨fun hb => ?_, readReg_of_hostReg_none (hostReg_of_ge hn) s⟩⟩
  rw [hostWrite_of_no_reg (hostReg_of_ge hn), State.whenIdle_of_idle hb]

/-! ### A device command and its writes -/

/-- The state with another queue of pending events. -/
def State.withInbox (q : List EnvEvent) (s : State) : State := { s with inbox := q }

theorem regStore_withInbox (s : State) (r : HostReg) (v : BusWord) (q : List EnvEvent) :
    (s.withInbox q).regStore r v = (s.regStore r v).withInbox q := by
  cases r <;> rfl

/-- A gated operation that the queue plays no part in passes the gate with any queue. -/
theorem whenIdle_withInbox {act : State → State} {q : List EnvEvent}
    (hact : ∀ s : State, act (s.withInbox q) = (act s).withInbox q) (s : State) :
    (s.withInbox q).whenIdle act = (s.whenIdle act).withInbox q := by
  cases hb : s.busy with
  | true => rw [State.whenIdle_of_busy hb, State.whenIdle_of_busy (s := s.withInbox q) hb]; rfl
  | false => rw [State.whenIdle_of_idle hb, State.whenIdle_of_idle (s := s.withInbox q) hb, hact]

/-- The pending events play no part in a host write. -/
theorem hostWrite_withInbox (s : State) (n : Nat) (v : BusWord) (q : List EnvEvent) :
    (s.withInbox q).hostWrite n v = (s.hostWrite n v).withInbox q := by
  cases hr : hostReg n with
  | none =>
    rw [hostWrite_of_no_reg hr, hostWrite_of_no_reg hr]
    exact whenIdle_withInbox (act := fun t => t) (fun _ => rfl) s
  | some r =>
    simp only [State.hostWrite, hr]
    split
    · exact regStore_withInbox s r v q
    · exact whenIdle_withInbox (fun t => regStore_withInbox t r v q) s

/-- Host register writes performed one after the other. -/
def State.hostWrites (ws : List (Nat × BusWord)) (s : State) : State :=
  ws.foldl (fun t w => t.hostWrite w.1 w.2) s

/-- The events of these writes. -/
def writeEvents (ws : List (Nat × BusWord)) : List EnvEvent := ws.map fun w => .hostWrite w.1 w.2

/-- A run over pending register writes other than CTRL performs them in order. -/
theorem runFor_hostWrites {ws : List (Nat × BusWord)} (hws : ∀ w ∈ ws, w.1 ≠ 0) (k : Nat) (s : State)
    (es : List EnvEvent) :
    runFor (k + ws.length) (s.withInbox (writeEvents ws ++ es)) =
      runFor k ((s.hostWrites ws).withInbox es) := by
  induction ws generalizing s with
  | nil => rfl
  | cons w ws ih =>
    obtain ⟨hw, hrest⟩ := List.forall_mem_cons.1 hws
    have hstep : step (s.withInbox (writeEvents (w :: ws) ++ es)) =
        .next ((s.hostWrite w.1 w.2).withInbox (writeEvents ws ++ es)) := by
      rw [← hostWrite_withInbox]
      exact step_hostWrite_of_ne_zero hw rfl
    rw [List.length_cons, ← Nat.add_assoc, runFor_succ _ hstep]
    exact ih hrest (s.hostWrite w.1 w.2)

/-- Writes that are each ignored and flagged while BUSY = 1 are so together. -/
theorem hostWrites_of_busy {ws : List (Nat × BusWord)} (hws : ∀ w ∈ ws, 0x05 ≤ w.1) {s : State}
    (hb : s.busy = true) (hne : ws ≠ []) : s.hostWrites ws = { s with wBusyViol := true } := by
  induction ws generalizing s with
  | nil => exact absurd rfl hne
  | cons w ws ih =>
    obtain ⟨hw, hrest⟩ := List.forall_mem_cons.1 hws
    have hfirst : s.hostWrites (w :: ws) = ({ s with wBusyViol := true } : State).hostWrites ws :=
      congrArg (State.hostWrites ws) (hostWrite_of_busy hb (by omega) (by omega) (by omega) w.2)
    rw [hfirst]
    cases ws with
    | nil => rfl
    | cons w' ws => exact ih hrest (s := { s with wBusyViol := true }) hb (List.cons_ne_nil _ _)

/-- A register is found at its number. -/
theorem hostReg_number (r : HostReg) : hostReg r.number = some r := by
  cases r with
  | x i => revert i; decide
  | _ => rfl

theorem busy_regStore (s : State) (r : HostReg) (v : BusWord) : (s.regStore r v).busy = s.busy := by
  cases r <;> rfl

/-- While BUSY = 0 writes reach their registers one after the other. -/
theorem hostWrites_of_idle {s : State} (hb : s.busy = false) (rs : List (HostReg × BusWord)) :
    s.hostWrites (rs.map fun r => (r.1.number, r.2)) = rs.foldl (fun t r => t.regStore r.1 r.2) s := by
  induction rs generalizing s with
  | nil => rfl
  | cons r rs ih =>
    have hfirst : s.hostWrite r.1.number r.2 = s.regStore r.1 r.2 :=
      hostWrite_of_idle hb (hostReg_number r.1) r.2
    exact (congrArg (State.hostWrites _) hfirst).trans (ih ((busy_regStore s r.1 r.2).trans hb))

/-- The operand registers a command's frame spells, with the bytes to write: CHANNEL, then x[0] to x[8]
(R92, R204). -/
def operandStores (cmd : Byte) (a : FrameArgs) : List (HostReg × BusWord) :=
  [(.channel, a.channel.setWidth 32), (.x 0, cmd.setWidth 32), (.x 1, a.p1l.setWidth 32),
    (.x 2, a.p1h.setWidth 32), (.x 3, a.p2l.setWidth 32), (.x 4, a.p2h.setWidth 32),
    (.x 5, a.eal.setWidth 32), (.x 6, a.eah.setWidth 32), (.x 7, a.ebl.setWidth 32),
    (.x 8, a.ebh.setWidth 32)]

/-- The ten operand writes, by register number. -/
def operandWrites (cmd : Byte) (a : FrameArgs) : List (Nat × BusWord) :=
  (operandStores cmd a).map fun r => (r.1.number, r.2)

theorem operandWrites_ge (cmd : Byte) (a : FrameArgs) : ∀ w ∈ operandWrites cmd a, 0x05 ≤ w.1 := by
  simp [operandWrites, operandStores, HostReg.number]

/-- All nine operand registers set are the vector of the values set. -/
theorem vector_set_all (x : Vector Byte 9) (b0 b1 b2 b3 b4 b5 b6 b7 b8 : Byte) :
    ((((((((x.set 0 b0).set 1 b1).set 2 b2).set 3 b3).set 4 b4).set 5 b5).set 6 b6).set 7 b7).set 8 b8 =
      #v[b0, b1, b2, b3, b4, b5, b6, b7, b8] := by
  obtain ⟨⟨l⟩, hl⟩ := x
  match l, hl with
  | [_, _, _, _, _, _, _, _, _], _ => rfl

/-- While BUSY = 0 the ten writes load the operands. -/
theorem hostWrites_operands_of_idle {s : State} (hb : s.busy = false) (cmd : Byte) (a : FrameArgs) :
    s.hostWrites (operandWrites cmd a) = s.loadOperands cmd a := by
  have hbyte : ∀ b : Byte, (b.setWidth 32).setWidth 8 = b := fun b => by simp
  rw [operandWrites, hostWrites_of_idle hb]
  simp only [operandStores, List.foldl_cons, List.foldl_nil, State.regStore, hbyte]
  exact congrArg (fun x => ({ s with channel := a.channel, x := x } : State)) (vector_set_all s.x ..)

/-- A device command is the issuing of its byte with its operands (R82). -/
theorem exec_commandInstr (c : Command) (a : FrameArgs) (s : State) :
    exec (c.instr a) s = .next (s.issue c.byte a) := by
  cases c <;> rfl

theorem runFor_one (s : State) : runFor 1 s = step s := by
  have hcore : Sys2Proof.core.step s = step s := rfl
  simp only [runFor, Host.Core.run, hcore]
  split <;> next h => exact h.symm

/-- The value 0x102 starts RUN. -/
theorem decode_ctrlWord_run : decode (ctrlWord 0x102) = .ok .run := by
  rw [ctrlWriteSelectsOperation]
  decide

theorem step_startRun (s : State) (es : List EnvEvent) :
    step (s.withInbox (.hostWrite 0 0x102 :: es)) = .next ((s.withInbox es).whenIdle State.runOp) :=
  step_ctrl_of_ok rfl decode_ctrlWord_run

/-- Starting RUN after the ten operand writes is issuing the command, whether they were performed or
ignored. -/
theorem startRun_after_operandWrites (s : State) (cmd : Byte) (a : FrameArgs) (es : List EnvEvent) :
    ((s.hostWrites (operandWrites cmd a)).withInbox es).whenIdle State.runOp =
      (s.withInbox es).issue cmd a := by
  cases hb : s.busy with
  | true =>
    rw [hostWrites_of_busy (operandWrites_ge _ _) hb (List.cons_ne_nil _ _), State.issue,
      State.whenIdle_of_busy (s := s.withInbox es) hb]
    exact State.whenIdle_of_busy (s := ({ s with wBusyViol := true } : State).withInbox es) hb _
  | false =>
    rw [hostWrites_operands_of_idle hb, State.issue_of_idle (s := s.withInbox es) hb]
    exact State.whenIdle_of_idle (s := (s.loadOperands cmd a).withInbox es) hb _

/-- Settles O16: ten steps perform the operand writes, the eleventh starts RUN. -/
theorem commandIsItsHostWrites : Obligations.CommandIsItsHostWrites := by
  intro c a s es
  have hne : ∀ w ∈ operandWrites c.byte a, w.1 ≠ 0 := fun w hw => by
    have := operandWrites_ge _ _ w hw
    omega
  calc runFor (1 + (operandWrites c.byte a).length)
        (s.withInbox (writeEvents (operandWrites c.byte a) ++ .hostWrite 0 0x102 :: es))
    _ = step ((s.hostWrites (operandWrites c.byte a)).withInbox (.hostWrite 0 0x102 :: es)) := by
      rw [runFor_hostWrites hne, runFor_one]
    _ = exec (c.instr a) (s.withInbox es) := by
      rw [step_startRun, startRun_after_operandWrites, exec_commandInstr]

end Sys2Proof.Machine
end

section
/-! PROOFS. What a host reads and clears (`10_state.md` R17 to R19, R23, R26): the layouts of STATUS and
RESULT, the write-1-to-clear bits, the interrupt line, and the elements of the buffer spaces. -/

namespace Sys2Proof.Machine

/-! ### The layouts of STATUS and RESULT -/

/-- A concatenation as a number: the high part moved up by the width of the low part. -/
theorem toNat_append_eq_add {m n : Nat} (x : BitVec m) (y : BitVec n) :
    (x ++ y).toNat = x.toNat * 2 ^ n + y.toNat := by
  rw [BitVec.toNat_append, ← Nat.shiftLeft_add_eq_or_of_lt y.isLt, Nat.shiftLeft_eq]

/-- STATUS as a number (R17). -/
theorem State.toNat_statusWord (s : State) : s.statusWord.toNat = s.busy.toNat
    + 2 * s.st.code.toNat
    + 16 * s.degraded.toNat + 32 * s.p1Valid.toNat + 64 * s.p2Valid.toNat + 256 * s.wBusyViol.toNat
    + 512 * s.wBadDigit.toNat + 1024 * s.wTplClip.toNat + 2048 * s.wTplOor.toNat
    + 4096 * s.wPbufOvf.toNat := by
  simp only [State.statusWord, toNat_append_eq_add, BitVec.toNat_ofBool]
  simp only [BitVec.toNat_ofNat]
  omega

/-- RESULT as a number (R18). -/
theorem State.toNat_resultWord (s : State) :
    s.resultWord.toNat = 256 * s.resultCode.toNat + s.resultClass.code.toNat := by
  simp only [State.resultWord, toNat_append_eq_add, BitVec.toNat_ofNat]
  omega

/-- STATUS bit by bit (R17): bit 7 and the bits from 13 read 0. -/
theorem State.getLsbD_statusWord (s : State) (k : Nat) : s.statusWord.getLsbD k =
    [s.busy, s.st.code.getLsbD 0, s.st.code.getLsbD 1, s.st.code.getLsbD 2, s.degraded, s.p1Valid,
      s.p2Valid, false, s.wBusyViol, s.wBadDigit, s.wTplClip, s.wTplOor, s.wPbufOvf].getD k false := by
  simp only [State.statusWord, BitVec.getLsbD_append]
  rcases Nat.lt_or_ge k 13 with hk | hk
  · interval_cases k <;> simp
  · rw [List.getD_eq_default _ _ hk]
    repeat rw [if_neg (by omega)]
    simp

/-- The register of number 0x01 is STATUS. -/
theorem readReg_status (s : State) : s.readReg 0x01 = s.statusWord.setWidth 32 := rfl

theorem readReg_result (s : State) : s.readReg 0x02 = s.resultWord.setWidth 32 := rfl

theorem readReg_evt (s : State) : s.readReg 0x03 = s.evt.setWidth 32 := rfl

theorem readReg_evtEn (s : State) : s.readReg 0x04 = s.evtEn.setWidth 32 := rfl

/-! ### The registers open while BUSY = 1 -/

theorem hostWrite_status (s : State) (v : BusWord) : s.hostWrite 0x01 v = s.clearWarnings v := rfl

theorem hostWrite_evt (s : State) (v : BusWord) : s.hostWrite 0x03 v = s.clearEvents v := rfl

theorem hostWrite_evtEn (s : State) (v : BusWord) :
    s.hostWrite 0x04 v = { s with evtEn := v.setWidth 4 } := rfl

/-- Writing STATUS clears the bits 8 to 12 that are written as 1 (R17). -/
theorem State.getLsbD_statusWord_clearWarnings (s : State) (v : BusWord) (k : Nat) :
    (s.clearWarnings v).statusWord.getLsbD k =
      (s.statusWord.getLsbD k && !(decide (8 ≤ k ∧ k ≤ 12) && v.getLsbD k)) := by
  rw [State.getLsbD_statusWord, State.getLsbD_statusWord]
  rcases Nat.lt_or_ge k 13 with hk | hk
  · interval_cases k <;> simp
  · rw [List.getD_eq_default _ _ hk, List.getD_eq_default _ _ hk, Bool.false_and]

/-- Writing EVT clears the bits that are written as 1 (R19). -/
theorem State.getLsbD_evt_clearEvents (s : State) (v : BusWord) (k : Nat) :
    (s.clearEvents v).evt.getLsbD k = (s.evt.getLsbD k && !v.getLsbD k) := by
  by_cases hk : k < 4
  · simp [State.clearEvents, hk]
  · simp [BitVec.getLsbD_of_ge _ k (Nat.le_of_not_lt hk)]

/-- A register of up to 32 bits shows its own bits on the bus. -/
theorem getLsbD_setWidth_bus {w : Nat} (hw : w ≤ 32) (b : BitVec w) (k : Nat) :
    (b.setWidth 32).getLsbD k = b.getLsbD k := by
  rw [BitVec.getLsbD_setWidth]
  by_cases hk : k < 32
  · simp [hk]
  · simp [BitVec.getLsbD_of_ge b k (by omega)]

/-- The interrupt line is 1 exactly when some bit is set in both EVT and EVT_EN (R19, R240). -/
theorem State.irq_iff (s : State) :
    s.irq = true ↔ ∃ j, s.evt.getLsbD j = true ∧ s.evtEn.getLsbD j = true := by
  rw [State.irq, bne_iff_ne]
  refine ⟨fun hne => ?_, fun ⟨j, hevt, hen⟩ hzero => ?_⟩
  · by_contra hnone
    refine hne (BitVec.eq_of_getLsbD_eq fun j _ => ?_)
    rw [BitVec.getLsbD_and, BitVec.ofNat_eq_ofNat, BitVec.getLsbD_zero, ← Bool.not_eq_true, Bool.and_eq_true]
    exact fun h => hnone ⟨j, h⟩
  · have hbit : (s.evt &&& s.evtEn).getLsbD j = true := by rw [BitVec.getLsbD_and, hevt, hen]; rfl
    rw [hzero] at hbit
    simp at hbit

/-- Settles O46, from the two layouts and the two write-1-to-clear rules. -/
theorem stickyBitsClearWhenWrittenOne : Obligations.StickyBitsClearWhenWrittenOne := by
  intro s v k
  refine ⟨?status, ?evt, fun n hn => readReg_regStore_of_ne s (r := .status) rfl hn v,
    fun n hn => readReg_regStore_of_ne s (r := .evt) rfl hn v, rfl, rfl, ?evtEn, ?irq, ?statusWord, ?resultWord⟩
  case status =>
    rw [hostWrite_status, readReg_status, readReg_status, getLsbD_setWidth_bus (by decide),
      getLsbD_setWidth_bus (by decide), State.getLsbD_statusWord_clearWarnings]
  case evt =>
    rw [hostWrite_evt, readReg_evt, readReg_evt, getLsbD_setWidth_bus (by decide),
      getLsbD_setWidth_bus (by decide), State.getLsbD_evt_clearEvents]
  case evtEn => rw [hostWrite_evtEn, BitVec.ofNat_toNat]
  case irq =>
    simp only [readReg_evt, readReg_evtEn, getLsbD_setWidth_bus (show 4 ≤ 32 by decide)]
    exact s.irq_iff
  case statusWord =>
    rw [readReg_status, BitVec.toNat_setWidth_of_le (by decide), State.toNat_statusWord]
    cases s.st <;> rfl
  case resultWord =>
    rw [readReg_result, BitVec.toNat_setWidth_of_le (by decide), State.toNat_resultWord]
    cases s.resultClass <;> rfl

/-! ### The buffer spaces -/

@[simp] theorem bufOfSpace_space (b : Buf) : bufOfSpace b.space = some b := by
  cases b <;> rfl

/-- Spaces from 6 hold no byte buffer (R23). -/
theorem bufOfSpace_of_ge {space : Nat} (h : 6 ≤ space) : bufOfSpace space = none := by
  cases hb : bufOfSpace space with
  | none => rfl
  | some b =>
    have hs : space = b.space := bufOfSpace_eq_some hb
    have hlt : b.space < 6 := by cases b <;> decide
    omega

theorem hostBufWrite_of_idle {s : State} (hb : s.busy = false) (b : Buf) (i : Nat) (v : Byte) :
    s.hostBufWrite b.space i v =
      if b.hostWritable ∧ i < b.size s.cfg then s.writeBytes b i [v] else s := by
  rw [State.hostBufWrite, State.whenIdle_of_idle hb]
  simp only [State.bufStore, bufOfSpace_space]

/-- While BUSY = 0 a write to DIRMAP or to a missing space stores nothing (R23). -/
theorem hostBufWrite_of_idle_of_ge {s : State} (hb : s.busy = false) {space : Nat} (h : 6 ≤ space)
    (i : Nat) (v : Byte) : s.hostBufWrite space i v = s := by
  rw [State.hostBufWrite, State.whenIdle_of_idle hb]
  simp only [State.bufStore, bufOfSpace_of_ge h]

theorem hostWritable_iff_mem (b : Buf) : b.hostWritable = true ↔ b ∈ [Buf.ack, .pbuf, .hbuf, .tbuf] := by
  cases b <;> decide

theorem not_hostWritable_of_mem {b : Buf} (h : b ∈ [Buf.txf, .ibuf]) : ¬ b.hostWritable = true := by
  revert h
  cases b <;> decide

/-- Writing one byte of a buffer, element by element. -/
theorem byteAt_writeByte (s : State) (b : Buf) (i : Nat) (v : Byte) (c : Buf) (k : Nat) :
    (s.writeBytes b i [v]).byteAt c k = if c = b ∧ k = i then v else s.byteAt c k := by
  by_cases hc : c = b
  · subst hc
    rw [State.byteAt_writeBytes_same]
    by_cases hk : k = i
    · subst hk; simp
    · have hout : ¬ (i ≤ k ∧ k < i + [v].length) := by rw [List.length_singleton]; omega
      rw [if_neg hout, if_neg fun h => hk h.2]
  · rw [State.byteAt_writeBytes_of_ne s i [v] hc k, if_neg (fun h => hc h.1)]

theorem readBuf_space (s : State) (b : Buf) (i : Nat) :
    s.readBuf b.space i = if i < b.size s.cfg then (s.byteAt b i).setWidth 32 else 0 := by
  simp only [State.readBuf, bufOfSpace_space]

theorem readBuf_of_ge (s : State) {space : Nat} (h : 6 ≤ space) (i : Nat) :
    s.readBuf space i =
      if space = 6 ∧ i < Config.dirSize then (BitVec.ofBool (s.dirBit i)).setWidth 32 else 0 := by
  simp only [State.readBuf, bufOfSpace_of_ge h]

theorem setWidth_ofBool (b : Bool) : (BitVec.ofBool b).setWidth 32 = if b then 1 else 0 := by
  cases b <;> rfl

/-- The step on an event without an instruction word is its reaction. -/
theorem step_of_word_none {s : State} {e : EnvEvent} {es : List EnvEvent} (h : s.inbox = e :: es)
    (hw : e.word = none) : step s = ({ s with inbox := es } : State).react e := by
  rw [step_of_inbox_cons h, runEvent_of_word_none hw]

/-- Settles O47, from what a buffer write and a buffer read do in each space. -/
theorem hostBufferAccess : Obligations.HostBufferAccess := by
  intro s b i v
  refine ⟨fun hi hb hw => ?_, fun hi hb hw => ?_, fun hi => ⟨fun hb => ?_, ?_⟩, fun hi => ?_, fun hi => ?_,
    fun hi => ?_, fun space h hb => hostBufWrite_of_idle_of_ge hb h i v, fun space h => ?_,
    fun space hb => State.whenIdle_of_busy hb _, fun es n space => ⟨fun h => ?_, fun h => ?_, fun h => ?_⟩⟩
  · rw [hostBufWrite_of_idle hb, if_pos ⟨(hostWritable_iff_mem b).2 hw, hi⟩]
    exact ⟨byteAt_writeByte s b i v, s.setBuf_setBuf_self b _⟩
  · rw [hostBufWrite_of_idle hb, if_neg fun h => not_hostWritable_of_mem hw h.1]
  · rw [hostBufWrite_of_idle hb, if_neg fun h => Nat.not_lt.2 hi h.2]
  · rw [readBuf_space, if_neg (Nat.not_lt.2 hi)]
  · rw [readBuf_space, if_pos hi]
  · rw [readBuf_of_ge s (Nat.le_refl 6), if_pos ⟨rfl, hi⟩, setWidth_ofBool]
  · rw [readBuf_of_ge s (Nat.le_refl 6), if_neg fun h => Nat.not_lt.2 hi h.2]
  · rw [readBuf_of_ge s (by omega), if_neg (by omega)]
  · exact step_of_word_none h rfl
  · exact step_of_word_none h rfl
  · exact step_of_word_none h rfl

end Sys2Proof.Machine
end

section
/-! PROOFS. Storing a received chunk (`42_transport_session.md` R139): byte number n of a response lands in
ACK[n], then in PBUF[n - 12], and is dropped and flagged where PBUF is full. -/

namespace Sys2Proof.Machine

/-! ### One byte -/

/-- The byte stored is ACK[RLEN] while RLEN is below 12. -/
theorem byteAt_ack_storeByte (s : State) (b : Byte) (i : Nat) :
    (s.storeByte b).byteAt .ack i = if i = s.rlen.toNat ∧ i < 12 then b else s.byteAt .ack i := by
  rcases s.storeByte_cases b with ⟨hn, e⟩ | ⟨hn, _, e⟩ | ⟨hn, _, e⟩
  · have hwrite : (s.storeByte b).byteAt .ack i = (s.writeBytes .ack s.rlen.toNat [b]).byteAt .ack i := by
      rw [e]; rfl
    rw [hwrite, byteAt_writeByte]
    exact if_congr (by simp; omega) rfl rfl
  · rw [e, if_neg (by omega)]; rfl
  · rw [e, if_neg (by omega)]; rfl

/-- The byte stored is PBUF[RLEN - 12] from RLEN = 12 on, below PBUF_CAP. -/
theorem byteAt_pbuf_storeByte (s : State) (b : Byte) (i : Nat) : (s.storeByte b).byteAt .pbuf i =
    if i + 12 = s.rlen.toNat ∧ i < s.cfg.pbufCap then b else s.byteAt .pbuf i := by
  rcases s.storeByte_cases b with ⟨hn, e⟩ | ⟨hn, hcap, e⟩ | ⟨hn, hcap, e⟩
  · rw [e, if_neg (by omega)]; rfl
  · have hwrite : (s.storeByte b).byteAt .pbuf i =
        (s.writeBytes .pbuf (s.rlen.toNat - 12) [b]).byteAt .pbuf i := by
      rw [e]; rfl
    rw [hwrite, byteAt_writeByte]
    exact if_congr (by simp; omega) rfl rfl
  · rw [e, if_neg (by omega)]; rfl

/-- A byte that finds PBUF full is flagged. -/
theorem wPbufOvf_storeByte (s : State) (b : Byte) :
    (s.storeByte b).wPbufOvf = (s.wPbufOvf || decide (s.cfg.pbufCap + 12 ≤ s.rlen.toNat)) := by
  rcases s.storeByte_cases b with ⟨hn, e⟩ | ⟨hn, hcap, e⟩ | ⟨hn, hcap, e⟩
  · have hfits : ¬ s.cfg.pbufCap + 12 ≤ s.rlen.toNat := by omega
    simp [e, hfits]
  · have hfits : ¬ s.cfg.pbufCap + 12 ≤ s.rlen.toNat := by omega
    simp [e, hfits]
  · have hfull : s.cfg.pbufCap + 12 ≤ s.rlen.toNat := by omega
    simp [e, hfull]

theorem rlen_storeByte (s : State) (b : Byte) : (s.storeByte b).rlen = satSucc s.rlen := by
  rw [s.storeByte_frame b]

theorem cfg_storeByte (s : State) (b : Byte) : (s.storeByte b).cfg = s.cfg := by
  rw [s.storeByte_frame b]

/-- RLEN counts the byte where it does not saturate. -/
theorem toNat_rlen_storeByte {s : State} (h : s.rlen.toNat + 1 < 2 ^ 32) (b : Byte) :
    (s.storeByte b).rlen.toNat = s.rlen.toNat + 1 := by
  rw [rlen_storeByte, satSucc_toNat]
  omega

/-! ### A chunk -/

/-- RLEN grows by the length of the chunk and saturates (R139). -/
theorem toNat_rlen_foldl_storeByte (bs : List Byte) (s : State) :
    (bs.foldl State.storeByte s).rlen.toNat = min (s.rlen.toNat + bs.length) (2 ^ 32 - 1) := by
  induction bs generalizing s with
  | nil =>
    have := s.rlen.isLt
    simp only [List.foldl_nil, List.length_nil]
    omega
  | cons b bs ih =>
    rw [List.foldl_cons, ih, rlen_storeByte, satSucc_toNat, List.length_cons]
    omega

/-- Byte `k` of a chunk headed by `b`. -/
theorem getD_cons_sub {b : Byte} {bs : List Byte} {n k : Nat} (h : n + 1 ≤ k) :
    (b :: bs).getD (k - n) 0 = bs.getD (k - (n + 1)) 0 := by
  have hk : k - n = k - (n + 1) + 1 := by omega
  rw [hk, List.getD_cons_succ]

/-- Where every element is the byte its position in the response selects: one step of the induction over
a chunk, for ACK and PBUF alike. `k` is the response index of the element, `fits` whether it exists. -/
theorem chunk_element_cons (b : Byte) (bs : List Byte) (n k : Nat) (fits : Prop) [Decidable fits] (old : Byte) :
    (if n + 1 ≤ k ∧ k < n + 1 + bs.length ∧ fits then bs.getD (k - (n + 1)) 0
      else if k = n ∧ fits then b else old) =
    if n ≤ k ∧ k < n + (b :: bs).length ∧ fits then (b :: bs).getD (k - n) 0 else old := by
  rw [List.length_cons]
  by_cases hf : fits
  · rcases Nat.lt_trichotomy k n with hk | hk | hk
    · rw [if_neg (by omega), if_neg (by omega), if_neg (by omega)]
    · subst hk
      rw [if_neg (by omega), if_pos ⟨rfl, hf⟩, if_pos ⟨Nat.le_refl k, by omega, hf⟩, Nat.sub_self,
        List.getD_cons_zero]
    · rw [if_neg (show ¬ (k = n ∧ fits) by omega), getD_cons_sub hk]
      exact if_congr (by simp only [hf, and_true]; omega) rfl rfl
  · rw [if_neg fun h => hf h.2.2, if_neg fun h => hf h.2, if_neg fun h => hf h.2.2]

theorem byteAt_ack_foldl_storeByte (bs : List Byte) {s : State}
    (h : s.rlen.toNat + bs.length < 2 ^ 32) (i : Nat) : (bs.foldl State.storeByte s).byteAt .ack i =
      if s.rlen.toNat ≤ i ∧ i < s.rlen.toNat + bs.length ∧ i < 12 then bs.getD (i - s.rlen.toNat) 0
      else s.byteAt .ack i := by
  induction bs generalizing s with
  | nil => rw [if_neg (by simp only [List.length_nil]; omega)]; rfl
  | cons b bs ih =>
    rw [List.length_cons] at h
    have hn := toNat_rlen_storeByte (s := s) (by omega) b
    rw [List.foldl_cons, ih (by omega), hn, byteAt_ack_storeByte, chunk_element_cons]

theorem byteAt_pbuf_foldl_storeByte (bs : List Byte) {s : State}
    (h : s.rlen.toNat + bs.length < 2 ^ 32) (i : Nat) : (bs.foldl State.storeByte s).byteAt .pbuf i =
      if s.rlen.toNat ≤ i + 12 ∧ i + 12 < s.rlen.toNat + bs.length ∧ i < s.cfg.pbufCap
      then bs.getD (i + 12 - s.rlen.toNat) 0 else s.byteAt .pbuf i := by
  induction bs generalizing s with
  | nil => rw [if_neg (by simp only [List.length_nil]; omega)]; rfl
  | cons b bs ih =>
    rw [List.length_cons] at h
    have hn := toNat_rlen_storeByte (s := s) (by omega) b
    rw [List.foldl_cons, ih (by omega), hn, cfg_storeByte, byteAt_pbuf_storeByte, chunk_element_cons]

/-- W_PBUF_OVF is set exactly when the last byte of the chunk, and so some byte, did not fit (R14). -/
theorem wPbufOvf_foldl_storeByte (bs : List Byte) {s : State} (h : s.rlen.toNat + bs.length < 2 ^ 32) :
    (bs.foldl State.storeByte s).wPbufOvf =
      (s.wPbufOvf || decide (bs ≠ [] ∧ s.cfg.pbufCap + 12 < s.rlen.toNat + bs.length)) := by
  induction bs generalizing s with
  | nil => simp
  | cons b bs ih =>
    rw [List.length_cons] at h
    have hn := toNat_rlen_storeByte (s := s) (by omega) b
    rw [List.foldl_cons, ih (by omega), hn, cfg_storeByte, wPbufOvf_storeByte, Bool.or_assoc,
      ← Bool.decide_or, List.length_cons]
    congr 2
    cases bs with
    | nil => simp
    | cons _ _ => simp; omega

/-- Settles O33: the facts about the bytes of a chunk one after the other; WTIMER is no buffer byte. -/
theorem chunkStoredInOrder : Obligations.ChunkStoredInOrder := by
  intro s bs
  refine ⟨toNat_rlen_foldl_storeByte bs s, ?frame, fun h => ⟨byteAt_ack_foldl_storeByte bs h,
    byteAt_pbuf_foldl_storeByte bs h, wPbufOvf_foldl_storeByte bs h⟩⟩
  rw [s.store_frame bs]

end Sys2Proof.Machine
end

section
/-! PROOFS. What every step keeps (`10_state.md` R11 to R24): the operand registers, the logs, the ranges
of the result registers, and the invariants at reset. -/

namespace Sys2Proof.Machine

/-! ### The operand registers -/

/-- The registers only the host writes: the operands, CHANNEL and EVT_EN (R11, R12, R15, R19). -/
def State.operands (s : State) : Vector Byte 9 × Byte × BitVec 32 × BitVec 16 × BitVec 1 × BitVec 16 ×
    BitVec 16 × BitVec 32 × BitVec 16 × BitVec 4 :=
  (s.x, s.channel, s.baud, s.idIn, s.fmt, s.hlen, s.entryCount, s.expectLen, s.payloadRetryLimit, s.evtEn)

theorem SameButEnd.operands_eq {s t : State} (h : SameButEnd s t) : t.operands = s.operands := by
  rw [h]; rfl

theorem State.operands_ackDecode (s : State) (c : Byte) :
    (s.ackDecode c).operands = s.operands := rfl

theorem State.operands_writeBytes (s : State) (b : Buf) (n : Nat) (bs : List Byte) :
    (s.writeBytes b n bs).operands = s.operands := by
  simp [State.operands]

theorem State.operands_store (s : State) (bs : List Byte) : (s.store bs).operands = s.operands := by
  rw [State.store_frame]; rfl

theorem State.operands_whenIdle {act : State → State} (h : ∀ s : State, (act s).operands = s.operands)
    (s : State) : (s.whenIdle act).operands = s.operands := by
  unfold State.whenIdle
  split
  · rfl
  · exact h s

/-! ### The eight host operations leave the operands -/

theorem State.operands_runOp (s : State) : s.runOp.operands = s.operands := by
  unfold State.runOp
  split
  · exact (sameButEnd_refuse s _).operands_eq
  · rw [State.runAccept_eq]; rfl

theorem State.operands_id2bOp (s : State) : s.id2bOp.operands = s.operands := by
  unfold State.id2bOp
  split
  · exact (sameButEnd_refuse s _).operands_eq
  · exact (sameButEnd_complete _).operands_eq

theorem State.operands_writeRecord (s : State) (rec : List Byte) (c : TemplateCopy) :
    (s.writeRecord rec c).operands = s.operands := by
  rw [State.writeRecord_eq]; rfl

theorem State.operands_enctplOp (s : State) : s.enctplOp.operands = s.operands := by
  unfold State.enctplOp
  split_ifs
  · exact (sameButEnd_refuse s _).operands_eq
  · exact (sameButEnd_refuse s _).operands_eq
  · exact (sameButEnd_refuse s _).operands_eq
  · exact s.operands_writeRecord _ _
  · exact s.operands_writeRecord _ _

theorem State.operands_nextfreeOp (s : State) : s.nextfreeOp.operands = s.operands :=
  (sameButEnd_complete _).operands_eq

theorem State.operands_decdirOp (s : State) : s.decdirOp.operands = s.operands := by
  unfold State.decdirOp
  split
  · exact (sameButEnd_refuse s _).operands_eq
  · exact (sameButEnd_complete _).operands_eq

theorem State.operands_foldl_flipRow (rows : List Nat) (s : State) :
    (rows.foldl State.flipRow s).operands = s.operands := by
  induction rows generalizing s with
  | nil => rfl
  | cons i rows ih => exact (ih (s.flipRow i)).trans (s.operands_writeBytes _ _ _)

theorem State.operands_flipimgOp (s : State) : s.flipimgOp.operands = s.operands := by
  unfold State.flipimgOp
  split
  · exact (sameButEnd_refuse s _).operands_eq
  · exact (sameButEnd_complete _).operands_eq.trans (s.operands_foldl_flipRow _)

/-- The host operations, without the device commands that load the operands first. -/
theorem exec_keeps_operands {i : Instr}
    (hi : i ∈ [Instr.build, .run, .id2b, .decack, .enctpl, .decdir, .nextfree, .flipimg]) {s t : State}
    (h : exec i s = .next t) : t.operands = s.operands := by
  simp only [List.mem_cons, List.not_mem_nil, or_false] at hi
  rcases hi with rfl | rfl | rfl | rfl | rfl | rfl | rfl | rfl <;> obtain ⟨⟩ := h
  · exact State.operands_whenIdle (fun s => (sameButEnd_complete s.latchFrame).operands_eq) s
  · exact State.operands_whenIdle State.operands_runOp s
  · exact State.operands_whenIdle State.operands_id2bOp s
  · exact State.operands_whenIdle (fun s => (sameButEnd_complete (s.ackDecode s.x[0])).operands_eq) s
  · exact State.operands_whenIdle State.operands_enctplOp s
  · exact State.operands_whenIdle State.operands_decdirOp s
  · exact State.operands_whenIdle State.operands_nextfreeOp s
  · exact State.operands_whenIdle State.operands_flipimgOp s

/-! ### The other agents' events leave the operands -/

theorem State.operands_bufStore (space i : Nat) (v : Byte) (s : State) :
    (s.bufStore space i v).operands = s.operands := by
  unfold State.bufStore
  split
  · split
    · exact s.operands_writeBytes _ _ _
    · rfl
  · rfl

theorem State.operands_onTxWritten (s : State) : s.onTxWritten.operands = s.operands := by
  unfold State.onTxWritten
  split
  · exact (sameButEnd_normalEnd s).operands_eq
  · rfl

theorem State.operands_ackComplete (s : State) : s.ackComplete.operands = s.operands := by
  have hdec : (s.ackDecode s.lcmd).operands = s.operands := s.operands_ackDecode _
  simp only [State.ackComplete]
  split_ifs
  · exact (sameButEnd_deviceErrorEnd _).operands_eq.trans hdec
  · exact (sameButEnd_normalEnd _).operands_eq.trans hdec
  · exact hdec

theorem State.operands_onChunkAck (s : State) (bs : List Byte) :
    (s.onChunkAck bs).operands = s.operands := by
  simp only [State.onChunkAck]
  split
  · exact (State.operands_ackComplete _).trans (s.operands_store bs)
  · exact s.operands_store bs

theorem State.operands_onChunkPayload (s : State) (bs : List Byte) :
    (s.onChunkPayload bs).operands = s.operands := by
  simp only [State.onChunkPayload]
  split
  · exact (sameButEnd_normalEnd _).operands_eq.trans (s.operands_store bs)
  · exact s.operands_store bs

theorem State.operands_onTickSending (s : State) : s.onTickSending.operands = s.operands := by
  simp only [State.onTickSending]
  split
  · exact (sameButEnd_raiseFault _ _).operands_eq
  · rfl

theorem State.operands_onTickAck (s : State) : s.onTickAck.operands = s.operands := by
  simp only [State.onTickAck]
  split_ifs
  · exact (sameButEnd_raiseFault _ _).operands_eq
  · rfl
  · rfl

theorem State.operands_onTickPayload (s : State) : s.onTickPayload.operands = s.operands := by
  simp only [State.onTickPayload]
  split_ifs
  · rfl
  · exact (sameButEnd_raiseFault _ _).operands_eq
  · rfl
  · rfl

theorem State.operands_onTick (s : State) : s.onTick.operands = s.operands := by
  cases hs : s.st with
  | idle | failed | configuring => rw [State.onTick_of_noWait (by simp [hs])]
  | sending => rw [State.onTick_of_sending hs, State.operands_onTickSending]
  | awaitingAck => rw [State.onTick_of_awaitingAck hs, State.operands_onTickAck]
  | awaitingPayload => rw [State.onTick_of_awaitingPayload hs, State.operands_onTickPayload]

theorem State.operands_onPresence (s : State) : s.onPresence.operands = s.operands := by
  unfold State.onPresence
  split <;> rfl

/-- No event but a register write, an issued command and Reset writes an operand register. -/
theorem react_keeps_operands {e : EnvEvent} (hw : e.word = none) (hwrite : ∀ n v, e ≠ .hostWrite n v)
    (hreset : e ≠ .reset) {s t : State} (h : s.react e = .next t) : t.operands = s.operands := by
  cases e with
  | hostWrite n v => exact absurd rfl (hwrite n v)
  | hostCommand f => cases hw
  | reset => exact absurd rfl hreset
  | hostBufWrite space i v =>
    obtain ⟨⟩ := h
    exact State.operands_whenIdle (State.operands_bufStore space i v) s
  | hostRead n | hostBufRead space i => obtain ⟨⟩ := h; rfl
  | tick => obtain ⟨⟩ := h; exact s.operands_onTick
  | presenceEdge => obtain ⟨⟩ := h; exact s.operands_onPresence
  | tpOpenOk =>
    cases hs : s.st <;> simp only [State.react, hs, State.notEnabled, reduceCtorEq] at h
    obtain ⟨⟩ := h
    rfl
  | tpOpenFail =>
    cases hs : s.st <;> simp only [State.react, hs, State.notEnabled, reduceCtorEq] at h
    obtain ⟨⟩ := h
    exact (sameButEnd_raiseFault s _).operands_eq
  | txWritten =>
    cases hs : s.st <;> simp only [State.react, hs, State.notEnabled, reduceCtorEq] at h
    obtain ⟨⟩ := h
    exact s.operands_onTxWritten
  | rxChunk b bs =>
    cases hs : s.st <;> simp only [State.react, hs, State.notEnabled, reduceCtorEq] at h
    all_goals obtain ⟨⟩ := h
    · exact s.operands_onChunkAck _
    · exact s.operands_onChunkPayload _

/-- Settles O51: neither the other agents' events nor the host operations write an operand register. -/
theorem fpcNeverWritesOperands : Obligations.FpcNeverWritesOperands := by
  intro s t h
  have hkept : t.operands = s.operands := by
    rcases h with ⟨e, es, hs, hw, hwrite, hreset, hstep⟩ | ⟨i, hi, hexec⟩
    · rw [step_of_word_none hs hw] at hstep
      exact react_keeps_operands (s := { s with inbox := es }) hw hwrite hreset hstep
    · exact exec_keeps_operands hi hexec
  simpa only [State.operands, Prod.mk.injEq] using hkept

/-! ### The logs -/

/-- The static parameters and TXLOG are as they were, and the other two logs are extended at most. -/
structure State.ExtendsTo (s t : State) : Prop where
  cfg : t.cfg = s.cfg
  txlog : t.txlog = s.txlog
  evlog : s.evlog <+: t.evlog
  portlog : s.portlog <+: t.portlog

theorem State.ExtendsTo.trans {s t u : State} (h : s.ExtendsTo t) (h' : t.ExtendsTo u) : s.ExtendsTo u :=
  ⟨h'.cfg.trans h.cfg, h'.txlog.trans h.txlog, h.evlog.trans h'.evlog, h.portlog.trans h'.portlog⟩

/-- The parameters and the three logs. -/
def State.logs (s : State) : Params × List Byte × List (EvKind × Option Byte) × List Pulse :=
  (s.cfg, s.txlog, s.evlog, s.portlog)

/-- An update that writes no log extends none. -/
theorem extendsTo_of_logs_eq {s t : State} (h : t.logs = s.logs) : s.ExtendsTo t := by
  simp only [State.logs, Prod.mk.injEq] at h
  obtain ⟨hcfg, htx, hev, hport⟩ := h
  exact ⟨hcfg, htx, hev ▸ List.prefix_rfl, hport ▸ List.prefix_rfl⟩

/-- What extends the logs does so after an update that writes no log. -/
theorem State.ExtendsTo.after {s t u : State} (h : t.ExtendsTo u) (e : t.logs = s.logs) : s.ExtendsTo u :=
  (extendsTo_of_logs_eq e).trans h

theorem extendsTo_pulse (s : State) (p : Pulse) : s.ExtendsTo (s.pulse p) :=
  ⟨rfl, rfl, List.prefix_rfl, List.prefix_append _ _⟩

theorem extendsTo_emit (s : State) (k : EvKind) (code : Option Byte) : s.ExtendsTo (s.emit k code) :=
  ⟨rfl, rfl, List.prefix_append _ _, List.prefix_append _ _⟩

theorem extendsTo_complete (s : State) : s.ExtendsTo s.complete :=
  (extendsTo_emit (s.setResult .ok 0) _ _).after rfl

theorem extendsTo_refuse (s : State) (c : Byte) : s.ExtendsTo (s.refuse c) :=
  (extendsTo_emit (s.setResult .illegalRequest c) _ _).after rfl

theorem extendsTo_endCycle (s : State) (q : SeqState) (r : ResultClass) (c : Byte) :
    s.ExtendsTo (s.endCycle q r c) :=
  (extendsTo_pulse s .tpClose).trans ((extendsTo_emit _ _ _).after rfl)

theorem extendsTo_deviceErrorEnd (s : State) : s.ExtendsTo s.deviceErrorEnd :=
  (extendsTo_emit s _ _).trans (extendsTo_endCycle _ _ _ _)

theorem extendsTo_markFault (s : State) (c : ResultClass) : s.ExtendsTo (s.markFault c) := by
  simp only [State.markFault]
  split
  · exact (extendsTo_emit _ _ _).after rfl
  · exact extendsTo_of_logs_eq rfl

theorem extendsTo_raiseFault (s : State) (c : ResultClass) : s.ExtendsTo (s.raiseFault c) :=
  (extendsTo_markFault s c).trans (extendsTo_endCycle _ _ _ _)

theorem extendsTo_regStore (s : State) (r : HostReg) (v : BusWord) : s.ExtendsTo (s.regStore r v) :=
  extendsTo_of_logs_eq (by cases r <;> rfl)

theorem extendsTo_writeBytes (s : State) (b : Buf) (n : Nat) (bs : List Byte) :
    s.ExtendsTo (s.writeBytes b n bs) :=
  extendsTo_of_logs_eq (by simp [State.logs])

theorem extendsTo_store (s : State) (bs : List Byte) : s.ExtendsTo (s.store bs) :=
  extendsTo_of_logs_eq (by rw [State.store_frame]; rfl)

theorem extendsTo_ackDecode (s : State) (c : Byte) : s.ExtendsTo (s.ackDecode c) :=
  extendsTo_of_logs_eq rfl

theorem extendsTo_acknowledged {s d : State} {bs : List Byte} {c : Byte}
    (hd : d = (s.store bs).ackDecode c) : s.ExtendsTo d :=
  hd ▸ (extendsTo_store s bs).trans (extendsTo_ackDecode _ c)

theorem Loaded.extendsTo {s v : State} (h : Loaded s v) : s.ExtendsTo v :=
  extendsTo_of_logs_eq (by cases h <;> rfl)

/-- An accepted RUN opens the port (R130). -/
theorem extendsTo_runAccept (s : State) : s.ExtendsTo s.runAccept := by
  rw [State.runAccept_eq]
  exact ⟨rfl, rfl, List.prefix_rfl, List.prefix_append _ _⟩

/-- Every reaction leaves TXLOG and extends the other logs, but for sending on `TpOpenOk` and for
Reset. -/
theorem Reaction.extendsTo {s t : State} {e : EnvEvent} (hr : Reaction s e t) :
    s.ExtendsTo t ∨ (e = .tpOpenOk ∧ t = s.onTpOpenOk) ∨ (e = .reset ∧ t = s.onReset) := by
  cases hr with
  | refused _ _ _ v hv => exact .inl (hv.extendsTo.trans (extendsTo_refuse v _))
  | accepted _ _ _ v hv => exact .inl (hv.extendsTo.trans (extendsTo_runAccept v))
  | build | id2b | decack | enctpl | decdir | nextfree | flipimg =>
    exact .inl ((extendsTo_complete _).after rfl)
  | regWrite r n v => exact .inl (extendsTo_regStore s r v)
  | bufWrite b i v => exact .inl (extendsTo_writeBytes s b i [v])
  | read _ _ v => exact .inl (extendsTo_pulse s _)
  | openOk => exact .inr (.inl ⟨rfl, rfl⟩)
  | openFail | writeTimeout | ackTimeout | payloadTimeout =>
    exact .inl ((extendsTo_raiseFault _ _).after rfl)
  | writtenBaud => exact .inl (extendsTo_endCycle s _ _ _)
  | chunkAck b bs | chunkPayload b bs => exact .inl (extendsTo_store s _)
  | ackError b bs _ d hd => exact .inl ((extendsTo_acknowledged hd).trans (extendsTo_deviceErrorEnd d))
  | ackEnd b bs _ d hd => exact .inl ((extendsTo_acknowledged hd).trans (extendsTo_endCycle d _ _ _))
  | ackPayload b bs _ d hd => exact .inl ((extendsTo_acknowledged hd).trans (extendsTo_of_logs_eq rfl))
  | payloadEnd b bs => exact .inl ((extendsTo_store s _).trans (extendsTo_endCycle _ _ _ _))
  | presence => exact .inl (extendsTo_emit s _ _)
  | reset => exact .inr (.inr ⟨rfl, rfl⟩)
  | ignored | flagged | written | tickSending | tickWindow | windowAck | windowUnbounded | windowPayload =>
    exact .inl (extendsTo_of_logs_eq rfl)

/-- Settles O52: of the reactions only sending and Reset do more than extend the logs. -/
theorem logsOnlyGrow : Obligations.LogsOnlyGrow := by
  intro s t e es hs hstep
  have hr : Reaction { s with inbox := es } e t := by
    rcases step_cases hstep with ⟨hnil, _⟩ | ⟨e', es', hs', hr⟩
    · rw [hs] at hnil
      cases hnil
    · rw [hs] at hs'
      obtain ⟨rfl, rfl⟩ := List.cons_eq_cons.1 hs'
      exact hr
  rcases hr.extendsTo with ⟨hcfg, htx, hev, hport⟩ | ⟨rfl, rfl⟩ | ⟨rfl, rfl⟩
  · exact ⟨hcfg, hport, fun _ => ⟨htx ▸ List.prefix_rfl, hev⟩, fun _ _ => htx⟩
  · exact ⟨rfl, List.prefix_append _ _, fun _ => ⟨List.prefix_append _ _, List.prefix_rfl⟩,
      fun _ h => absurd rfl h⟩
  · exact ⟨rfl, List.prefix_append _ _, fun h => absurd rfl h, fun h => absurd rfl h⟩

/-! ### The ranges of the result registers -/

/-- The fields whose ranges are kept. -/
def State.ranged (s : State) : BitVec 14 × BitVec 14 × BitVec 14 × BitVec 14 × BitVec 3 :=
  (s.param1, s.param2, s.nextFree, s.dirCount, s.retry)

theorem State.ValuesInRange.of_ranged_eq {s t : State} (h : s.ValuesInRange) (e : t.ranged = s.ranged) :
    t.ValuesInRange := by
  simp only [State.ranged, Prod.mk.injEq] at e
  obtain ⟨hp1, hp2, hnext, hcount, hretry⟩ := e
  exact ⟨hp1 ▸ h.param1, hp2 ▸ h.param2, hnext ▸ h.nextFree, hcount ▸ h.dirCount, hretry ▸ h.retry⟩

theorem SameButEnd.valuesInRange {s t : State} (e : SameButEnd s t) (h : s.ValuesInRange) :
    t.ValuesInRange :=
  h.of_ranged_eq (by rw [e]; rfl)

/-- A value that fits 14 bits is stored as it is. -/
theorem toNat_ofNat_14_le {n m : Nat} (hm : m ≤ 10000) (h : n ≤ m) : (BitVec.ofNat 14 n).toNat ≤ m := by
  rw [BitVec.toNat_ofNat, Nat.mod_eq_of_lt (by omega)]
  exact h

/-- The ack decode step writes two values of four decimal digits (R112). -/
theorem State.ValuesInRange.ackDecode {s : State} (h : s.ValuesInRange) (c : Byte) :
    (s.ackDecode c).ValuesInRange where
  param1 := toNat_ofNat_14_le (by omega) (pairval_le _ _)
  param2 := toNat_ofNat_14_le (by omega) (pairval_le _ _)
  nextFree := h.nextFree
  dirCount := h.dirCount
  retry := h.retry

theorem State.ValuesInRange.store {s : State} (h : s.ValuesInRange) (bs : List Byte) :
    (s.store bs).ValuesInRange :=
  h.of_ranged_eq (by rw [State.store_frame]; rfl)

/-- The free-id search answers an id it looked at, or 10000 (R203). -/
theorem firstFree_le (bit : Nat → Bool) {i n : Nat} (h : i + n ≤ 10000) : firstFree bit i n ≤ 10000 := by
  induction n generalizing i with
  | zero => exact Nat.le_refl _
  | succ n ih =>
    unfold firstFree
    split
    · exact ih (by omega)
    · omega

/-- A window that ends with fewer than five before it leaves RETRY at 5 or below (R142). -/
theorem toNat_retry_add_one_le {r : BitVec 3} (h : r.toNat < 5) : (r + 1).toNat ≤ 5 := by
  rw [BitVec.toNat_add, Nat.mod_eq_of_lt] <;> simp <;> omega

/-- Every reaction keeps the ranges; while the acknowledgment is awaited RETRY is below the budget. -/
theorem Reaction.keeps_valuesInRange {s t : State} {e : EnvEvent} (hr : Reaction s e t)
    (hack : s.st = .awaitingAck → s.retry.toNat < 5) (h : s.ValuesInRange) : t.ValuesInRange := by
  obtain ⟨hp1, hp2, hnext, hcount, hretry⟩ := id h
  cases hr with
  | ignored => exact h
  | refused _ _ _ v hv => exact (sameButEnd_refuse v _).valuesInRange (h.of_ranged_eq (by cases hv <;> rfl))
  | accepted _ _ _ v hv =>
    rw [State.runAccept_eq]
    cases hv <;> exact ⟨Nat.zero_le _, Nat.zero_le _, hnext, hcount, Nat.zero_le _⟩
  | decack => exact (sameButEnd_complete _).valuesInRange (h.ackDecode _)
  | build | id2b | enctpl | flipimg => exact (sameButEnd_complete _).valuesInRange (h.of_ranged_eq rfl)
  | decdir =>
    have hlen : s.decodedIds.length ≤ 10000 := s.idsLegal_decodedIds.length_le
    exact (sameButEnd_complete _).valuesInRange
      ⟨hp1, hp2, hnext, toNat_ofNat_14_le (Nat.le_refl _) hlen, hretry⟩
  | nextfree =>
    have hfree : firstFree s.dirBit 1 Config.idBound ≤ 10000 := firstFree_le _ (Nat.le_refl _)
    exact (sameButEnd_complete _).valuesInRange
      ⟨hp1, hp2, toNat_ofNat_14_le (Nat.le_refl _) hfree, hcount, hretry⟩
  | regWrite r => exact h.of_ranged_eq (by cases r <;> rfl)
  | bufWrite b => exact h.of_ranged_eq (by simp [State.ranged])
  | openFail | writeTimeout | payloadTimeout =>
    exact (sameButEnd_raiseFault _ _).valuesInRange (h.of_ranged_eq rfl)
  | writtenBaud => exact (sameButEnd_normalEnd s).valuesInRange h
  | written => exact ⟨hp1, hp2, hnext, hcount, Nat.zero_le _⟩
  | chunkAck | chunkPayload => exact h.store _
  | ackError _ _ _ d hd => exact (sameButEnd_deviceErrorEnd d).valuesInRange (hd ▸ (h.store _).ackDecode _)
  | ackEnd _ _ _ d hd => exact (sameButEnd_normalEnd d).valuesInRange (hd ▸ (h.store _).ackDecode _)
  | ackPayload _ _ _ d hd =>
    have hdec : d.ValuesInRange := hd ▸ (h.store _).ackDecode _
    exact hdec.of_ranged_eq rfl
  | payloadEnd => exact (sameButEnd_normalEnd _).valuesInRange (h.store _)
  | windowAck hs => exact ⟨hp1, hp2, hnext, hcount, toNat_retry_add_one_le (hack hs)⟩
  | ackTimeout hs =>
    exact (sameButEnd_raiseFault _ _).valuesInRange
      ⟨hp1, hp2, hnext, hcount, toNat_retry_add_one_le (hack hs)⟩
  | reset => exact ⟨Nat.zero_le _, Nat.zero_le _, Nat.zero_le _, Nat.zero_le _, Nat.zero_le _⟩
  | flagged | read | openOk | tickSending | tickWindow | windowUnbounded | windowPayload | presence =>
    exact h.of_ranged_eq rfl

/-- Settles O56: the sequencer invariant bounds RETRY while it is counted. -/
theorem stepKeepsValuesInRange : Obligations.StepKeepsValuesInRange := by
  intro s t hseq h hstep
  rcases step_cases hstep with ⟨_, rfl⟩ | ⟨e, es, _, hr⟩
  · exact h
  · refine hr.keeps_valuesInRange (fun hs => ?_) (h.of_ranged_eq rfl)
    obtain ⟨_, hretry, _⟩ := hseq.ackPending hs
    exact hretry

/-! ### The invariants at reset -/

/-- A state with no buffer written and no directory decoded has legal buffers (R30). -/
theorem buffersLegal_reset : State.reset.BuffersLegal :=
  (State.buffersLegal_onReset State.reset).of_storage_eq rfl

theorem valuesInRange_reset : State.reset.ValuesInRange :=
  ⟨Nat.zero_le _, Nat.zero_le _, Nat.zero_le _, Nat.zero_le _, Nat.zero_le _⟩

/-- At reset no cycle is in flight, so every clause about one is void. -/
theorem sequencerLegal_reset : State.reset.SequencerLegal where
  busyIffInCycle := rfl
  commandLegal := by rintro ⟨⟩
  recordFits := by rintro ⟨⟩
  imageFits := by rintro ⟨⟩
  nothingReceived _ := rfl
  writeRuns := by rintro ⟨⟩
  windowRuns := by rintro (⟨⟨⟩⟩ | ⟨⟨⟩⟩)
  ackPending := by rintro ⟨⟩
  payloadPending := by rintro ⟨⟩
  payloadBudget := by rintro ⟨⟩

theorem frameLegal_reset : State.reset.FrameLegal where
  lawful h := absurd rfl h
  latched := by rintro ⟨⟩

theorem eventsLegal_reset : State.reset.EventsLegal where
  logged k h := absurd (BitVec.zero_and) h
  codes := by rintro c ⟨⟩

/-- Settles O54: the six invariants one by one. -/
theorem resetIsLegal : Obligations.ResetIsLegal :=
  ⟨buffersLegal_reset, valuesInRange_reset, sequencerLegal_reset, frameLegal_reset, eventsLegal_reset, rfl⟩

end Sys2Proof.Machine
end

section
/-! PROOFS. The encodings (`30_encoding.md`): the words of the instructions and their decoding (R70, R82 to
R84, R90), and the template records of ENCTPL byte by byte (R74, R75, with `43_record_codec.md` R166 to
R172). -/

namespace Sys2Proof.Machine

/-! ### Instruction words -/

/-- The encoding of a device command is its frame (R70, R82). -/
theorem encode_commandInstr (c : Command) (a : FrameArgs) : encode (c.instr a) = frameBytes c.byte a := by
  cases c <;> rfl

/-- Every instruction is a device command (R82) or the host operation of an assigned number (R90). -/
theorem instr_command_or_operation (i : Instr) :
    (∃ c a, i = Command.instr c a) ∨ ∃ op, encode i = ctrlBytes op ∧ decodeOp op = .ok i := by
  cases i with
  | baud a => exact .inl ⟨.baud, a, rfl⟩
  | status a => exact .inl ⟨.status, a, rfl⟩
  | enrollStart a => exact .inl ⟨.enrollStart, a, rfl⟩
  | enrollFinish a => exact .inl ⟨.enrollFinish, a, rfl⟩
  | delete a => exact .inl ⟨.delete, a, rfl⟩
  | verify a => exact .inl ⟨.verify, a, rfl⟩
  | identify a => exact .inl ⟨.identify, a, rfl⟩
  | getImage a => exact .inl ⟨.getImage, a, rfl⟩
  | putTemplate a => exact .inl ⟨.putTemplate, a, rfl⟩
  | getTemplate a => exact .inl ⟨.getTemplate, a, rfl⟩
  | list a => exact .inl ⟨.list, a, rfl⟩
  | build | run | id2b | decack | enctpl | decdir | nextfree | flipimg => exact .inr ⟨_, rfl, rfl⟩

/-- The CTRL write that starts OP number `op` decodes as that number (R16). -/
theorem decode_ctrlBytes (op : BitVec 4) : decode (ctrlBytes op) = decodeOp op := by
  have hop : (op.setWidth 8).extractLsb' 0 4 = op := by
    rw [BitVec.toNat_eq, BitVec.extractLsb'_toNat, BitVec.toNat_setWidth]
    omega
  calc decode (ctrlBytes op)
    _ = decodeOp ((op.setWidth 8).extractLsb' 0 4) := rfl
    _ = decodeOp op := by rw [hop]

/-- A frame decodes exactly when its reserved byte is 0, its last byte the checksum and its command byte
one of the eleven, and then to that command (R70, R82, R84). -/
theorem decodeFrame_eq_ok_iff {cmd : Byte} {a : FrameArgs} {reserved sum : Byte} {i : Instr} :
    decodeFrame cmd a reserved sum = .ok i ↔
      reserved = 0 ∧ sum = checksum (cmd :: a.params) ∧
        ∃ c, Command.ofByte cmd = some c ∧ i = c.instr a := by
  unfold decodeFrame
  by_cases hres : reserved = 0#8
  · by_cases hsum : sum = checksum (cmd :: a.params)
    · cases Command.ofByte cmd <;> simp [hres, hsum, eq_comm]
    · simp [hres, hsum]
  · simp [hres]

/-- The frame of a command and its operands decodes to them. -/
theorem decode_frameBytes (c : Command) (a : FrameArgs) :
    decode (frameBytes c.byte a) = .ok (c.instr a) :=
  decodeFrame_eq_ok_iff.2 ⟨rfl, rfl, c, Command.ofByte_byte c, rfl⟩

/-- Twelve bytes with the reserved byte 0 and the checksum in place are the frame of the command byte and
operands they spell. -/
theorem frameBytes_frameVector {f : Vector Byte 12} (hres : f[10] = 0)
    (hsum : f[11] = checksum (f[1] :: (frameOperands f).params)) :
    frameBytes f[1] (frameOperands f) = f.toList := by
  rw [toList_frameVector, hres, hsum]
  rfl

/-- The 12-byte words that decode are the frames of the eleven commands, no others (R70, R84). -/
theorem eq_frameBytes_of_decode_ok {w : List Byte} {i : Instr} (hlen : w.length = 12)
    (hd : decode w = .ok i) : ∃ c a, w = frameBytes (Command.byte c) a ∧ i = c.instr a := by
  obtain ⟨f, rfl⟩ : ∃ f : Vector Byte 12, f.toList = w := ⟨⟨⟨w⟩, hlen⟩, rfl⟩
  rw [decode_frameVector, decodeFrame_eq_ok_iff] at hd
  obtain ⟨hres, hsum, c, hc, rfl⟩ := hd
  refine ⟨c, frameOperands f, ?_, rfl⟩
  rw [Command.byte_of_ofByte hc, frameBytes_frameVector hres hsum]

/-- Settles O1: a command's word is a frame that passes the frame checks, a host operation's is a CTRL
write of its number. -/
theorem decodeEncodeAgree : Obligations.DecodeEncodeAgree := by
  intro i _
  rcases instr_command_or_operation i with ⟨c, a, rfl⟩ | ⟨op, henc, hop⟩
  · rw [encode_commandInstr, decode_frameBytes]
  · rw [henc, decode_ctrlBytes, hop]

/-- Settles O2: the word is the frame of a command, and such frames are lawful. -/
theorem decodedFrameReencodes : Obligations.DecodedFrameReencodes := by
  intro w i hlen hd
  obtain ⟨c, a, rfl, rfl⟩ := eq_frameBytes_of_decode_ok hlen hd
  exact ⟨encode_commandInstr c a, frameLawful_frameBytes c.byte a, c, a, Command.ofByte_byte c, rfl⟩

/-- Settles O4: the first six words are what the encoder gives for their instructions, checksums computed;
the last is the CTRL write of an unassigned number. -/
theorem sampleWordsDecode : Obligations.SampleWordsDecode := by
  refine ⟨decodeEncodeAgree (.list ⟨0, 0, 0, 0, 0, 0, 0, 0, 0⟩) rfl,
    decodeEncodeAgree (.verify ⟨0xA5, 0x23, 0x01, 0, 0, 0, 0, 0, 0⟩) rfl,
    decodeEncodeAgree (.putTemplate ⟨0, 0x23, 0x01, 0, 0, 0x30, 0x03, 0, 0⟩) rfl,
    decodeEncodeAgree .build rfl, decodeEncodeAgree .run rfl, decodeEncodeAgree .nextfree rfl, ?_⟩
  have h9 : decodeOp 9 = .error (.illegalOp 9) := decodeOp_of_unassigned (.inr (Nat.le_refl 9))
  exact (decode_ctrlBytes 9).trans h9

/-! ### Template records -/

/-- A byte read from a copy of the source hash is the hash's, and 0 beyond the copy. -/
theorem getD_hashBytes (s : State) (start n j : Nat) :
    (s.hashBytes start n).getD j 0 = if j < n then s.byteAt .hbuf (start + j) else 0x00 := by
  rw [List.getD_eq_getElem?_getD, State.hashBytes]
  split
  next h => rw [State.getElem?_bytesFrom _ _ _ _ _ h, Option.getD_some]
  next h => rw [List.getElem?_eq_none (by simpa using h), Option.getD_none]

/-- The copy of the hash into one slot: its first 800 bytes. -/
theorem getD_hashBytes_slot (s : State) {j : Nat} (hj : j < 800) :
    (s.hashBytes 0 (min s.hlen.toNat Config.slot)).getD j 0 =
      if j < s.hlen.toNat then s.byteAt .hbuf j else 0x00 := by
  have hmin : j < min s.hlen.toNat Config.slot ↔ j < s.hlen.toNat := by
    rw [lt_min_iff]
    exact and_iff_left hj
  simp only [getD_hashBytes, hmin, Nat.zero_add]

/-- What follows the first part of a record begins at the part's length. -/
theorem getD_append_add {l : List Byte} {n : Nat} (hl : l.length = n) (l' : List Byte) (j : Nat) :
    (l ++ l').getD (n + j) 0 = l'.getD j 0 := by
  subst hl
  rw [List.getD_append_right _ _ _ _ (Nat.le_add_right _ _), Nat.add_sub_cancel_left]

/-- Within a slot the bytes are the copied ones, then zeros (R167). -/
theorem getD_slotBytes_append {bs : List Byte} (hfit : bs.length ≤ Config.slot) (l : List Byte) {j : Nat}
    (hj : j < 800) : (slotBytes bs ++ l).getD j 0 = bs.getD j 0 := by
  rw [List.getD_append _ _ _ _ (by rwa [length_slotBytes hfit]), getD_slotBytes]

theorem getD_recordTail {j : Nat} (hj : j < 12) : recordTail.getD j 0 = 0xFF :=
  List.getD_replicate _ hj

/-- The bytes of a Format A record: the copies in the slots at 4 and 804, the tail at 1604 (R74). -/
theorem getD_recordA {c : TemplateCopy} (h1 : c.t1.length ≤ Config.slot) (h2 : c.t2.length ≤ Config.slot)
    (id : Nat) :
    (∀ j < 800, (recordA id c).getD (4 + j) 0 = c.t1.getD j 0) ∧
    (∀ j < 800, (recordA id c).getD (804 + j) 0 = c.t2.getD j 0) ∧
    ∀ j < 12, (recordA id c).getD (1604 + j) 0 = 0xFF := by
  have hrec : recordA id c = recordHead id ++ (slotBytes c.t1 ++ (slotBytes c.t2 ++ recordTail)) := by
    simp only [recordA, List.append_assoc]
  have hhead : (recordHead id).length = 4 := rfl
  have hslot1 := length_slotBytes h1
  have hslot2 := length_slotBytes h2
  refine ⟨fun j hj => ?_, fun j hj => ?_, fun j hj => ?_⟩
  · rw [hrec, getD_append_add hhead, getD_slotBytes_append h1 _ hj]
  · rw [hrec, show 804 + j = 4 + (800 + j) by omega, getD_append_add hhead, getD_append_add hslot1,
      getD_slotBytes_append h2 _ hj]
  · rw [hrec, show 1604 + j = 4 + (800 + (800 + j)) by omega, getD_append_add hhead,
      getD_append_add hslot1, getD_append_add hslot2, getD_recordTail hj]

/-- The bytes of a Format B record: the copy in the slot at 4, the tail at 804 (R75). -/
theorem getD_recordB {c : TemplateCopy} (h1 : c.t1.length ≤ Config.slot) (id : Nat) :
    (∀ j < 800, (recordB id c).getD (4 + j) 0 = c.t1.getD j 0) ∧
    ∀ j < 12, (recordB id c).getD (804 + j) 0 = 0xFF := by
  have hrec : recordB id c = recordHead id ++ (slotBytes c.t1 ++ recordTail) := by
    simp only [recordB, List.append_assoc]
  have hhead : (recordHead id).length = 4 := rfl
  have hslot := length_slotBytes h1
  refine ⟨fun j hj => ?_, fun j hj => ?_⟩
  · rw [hrec, getD_append_add hhead, getD_slotBytes_append h1 _ hj]
  · rw [hrec, show 804 + j = 4 + (800 + j) by omega, getD_append_add hhead, getD_append_add hslot,
      getD_recordTail hj]

/-! ### ENCTPL -/

/-- While BUSY = 0 and with the operands in range, ENCTPL writes the record of its format (R167). -/
theorem exec_enctpl_of_formatA {s : State} (hb : s.busy = false) (hf : s.fmt = 0)
    (hid : s.idIn.toNat ≤ 9999) (hlow : 10 ≤ s.hlen.toNat) (hhigh : s.hlen.toNat ≤ 1600) :
    exec .enctpl s = .next (s.writeRecord (recordA s.idIn.toNat s.copyA) s.copyA) := by
  have hop : s.enctplOp = s.writeRecord (recordA s.idIn.toNat s.copyA) s.copyA := by
    rw [State.enctplOp, if_neg (Nat.not_lt.2 hid), if_neg (Nat.not_lt.2 hhigh),
      if_neg (fun h => Nat.not_lt.2 hlow h.2), if_neg (by rw [hf]; decide)]
  exact congrArg Host.Outcome.next ((State.whenIdle_of_idle hb _).trans hop)

theorem exec_enctpl_of_formatB {s : State} (hb : s.busy = false) (hf : s.fmt = 1)
    (hid : s.idIn.toNat ≤ 9999) (hhigh : s.hlen.toNat ≤ 1600) :
    exec .enctpl s = .next (s.writeRecord (recordB s.idIn.toNat s.copyB) s.copyB) := by
  have hop : s.enctplOp = s.writeRecord (recordB s.idIn.toNat s.copyB) s.copyB := by
    rw [State.enctplOp, if_neg (Nat.not_lt.2 hid), if_neg (Nat.not_lt.2 hhigh),
      if_neg (by rw [hf]; simp), if_pos hf]
  exact congrArg Host.Outcome.next ((State.whenIdle_of_idle hb _).trans hop)

/-- A written record stands in TBUF from index 0. -/
theorem byteAt_writeRecord_of_lt (s : State) {rec : List Byte} {n : Nat} (hl : rec.length = n)
    (c : TemplateCopy) {i : Nat} (hi : i < n) : (s.writeRecord rec c).byteAt .tbuf i = rec.getD i 0 := by
  rw [State.byteAt_writeRecord, if_pos (by rwa [hl])]

/-- TXLEN is the record's length (R167). -/
theorem txlen_writeRecord (s : State) {rec : List Byte} {n : Nat} (hl : rec.length = n) (c : TemplateCopy) :
    (s.writeRecord rec c).txlen = BitVec.ofNat 16 n := by
  rw [State.writeRecord_eq, hl]

/-- The length field of the template at 0 lies inside a hash of ten bytes (R168, R170). -/
theorem lenField_zero {s : State} (h : 10 ≤ s.hlen.toNat) :
    s.lenField 0 = 256 * (s.byteAt .hbuf 8).toNat + (s.byteAt .hbuf 9).toNat := by
  have h8 : s.hashRead 8 = s.byteAt .hbuf 8 := if_pos (by omega)
  have h9 : s.hashRead 9 = s.byteAt .hbuf 9 := if_pos (by omega)
  rw [← h8, ← h9]
  rfl

/-- A hash no longer than its length field is one template, copied into both slots (R169, R171). -/
theorem copyA_of_oneTemplate {s : State} (h : s.hlen.toNat ≤ s.lenField 0) : s.copyA =
    { t1 := s.hashBytes 0 (min s.hlen.toNat Config.slot)
      t2 := s.hashBytes 0 (min s.hlen.toNat Config.slot)
      clip := Config.slot < s.hlen.toNat, oor := false } :=
  if_neg (Nat.not_lt.2 h)

/-- Settles O22: the record is that of Format B, whose slot holds the first 800 bytes of the hash. -/
theorem enctplFormatBRecord : Obligations.EnctplFormatBRecord := by
  intro s hb hf hid hlen
  have hl := s.length_recordB s.idIn.toNat
  obtain ⟨hslot, htail⟩ := getD_recordB s.copyB_fits s.idIn.toNat
  have hbyte := fun i (hi : i < 816) => byteAt_writeRecord_of_lt s hl s.copyB hi
  refine ⟨_, exec_enctpl_of_formatB hb hf hid hlen, rfl, rfl, txlen_writeRecord s hl _,
    hbyte 0 (by omega), hbyte 1 (by omega), hbyte 2 (by omega), hbyte 3 (by omega),
    fun j hj => ?_, fun j hj => ?_, rfl, Bool.or_false _⟩
  · rw [hbyte _ (by omega), hslot j hj]
    exact getD_hashBytes_slot s hj
  · rw [hbyte _ (by omega), htail j hj]

/-- Settles O24: the record is that of Format A, with the one template in both slots. -/
theorem enctplFormatAOneTemplate : Obligations.EnctplFormatAOneTemplate := by
  intro s hb hf hid hlow hhigh hone
  rw [← lenField_zero hlow] at hone
  have hcopy := copyA_of_oneTemplate hone
  have hl := s.length_recordA s.idIn.toNat
  obtain ⟨hslot1, hslot2, htail⟩ := getD_recordA s.copyA_fits.1 s.copyA_fits.2 s.idIn.toNat
  have hbyte := fun i (hi : i < 1616) => byteAt_writeRecord_of_lt s hl s.copyA hi
  refine ⟨_, exec_enctpl_of_formatA hb hf hid hlow hhigh, rfl, rfl, txlen_writeRecord s hl _,
    hbyte 0 (by omega), hbyte 1 (by omega), hbyte 2 (by omega), hbyte 3 (by omega),
    fun j hj => ?_, fun j hj => ?_, fun j hj => ?_, ?_, ?_⟩
  · rw [hbyte _ (by omega), hslot1 j hj, hcopy]
    exact getD_hashBytes_slot s hj
  · rw [hbyte _ (by omega), hbyte _ (by omega), hslot2 j hj, hslot1 j hj, hcopy]
  · rw [hbyte _ (by omega), htail j hj]
  · rw [State.writeRecord_eq, hcopy]
  · rw [State.writeRecord_eq, hcopy, Bool.or_false]

end Sys2Proof.Machine
end

section
/-! PROOFS. The frame codec (`40_frame_codec.md` R100 to R102, with `44_device_facade.md` R190): the checksum,
the frame latched into TXF, and what every step keeps of it. -/

namespace Sys2Proof.Machine

/-! ### The checksum -/

/-- One byte more is one addition more in an 8-bit accumulator (R101). -/
theorem checksum_cons (b : Byte) (bs : List Byte) : checksum (b :: bs) = b + checksum bs := by
  simp [checksum, BitVec.ofNat_add]

/-- The frame's checksum as a sum of natural numbers cut to eight bits (R101). -/
theorem checksum_params (cmd : Byte) (a : FrameArgs) : checksum (cmd :: a.params) =
    BitVec.ofNat 8 (cmd.toNat + a.p1l.toNat + a.p1h.toNat + a.p2l.toNat + a.p2h.toNat + a.eal.toNat
      + a.eah.toNat + a.ebl.toNat + a.ebh.toNat) := by
  simp [checksum, FrameArgs.params, Nat.add_assoc]

/-- The frame's checksum as it is accumulated in eight bits (R101). -/
theorem checksum_params_eq_add (cmd : Byte) (a : FrameArgs) : checksum (cmd :: a.params) =
    cmd + a.p1l + a.p1h + a.p2l + a.p2h + a.eal + a.eah + a.ebl + a.ebh := by
  have hnil : checksum [] = 0#8 := rfl
  simp [checksum_cons, FrameArgs.params, hnil, BitVec.add_assoc]

/-- Byte 11 of a frame is the checksum over bytes 1 to 9 (R100). -/
theorem getD_frameBytes_checksum (cmd : Byte) (a : FrameArgs) :
    (frameBytes cmd a).getD 11 0 = checksum (cmd :: a.params) := rfl

/-- Settles O7: the two forms of the checksum, in which the channel does not occur. -/
theorem frameChecksumSumsBytesOneToNine : Obligations.FrameChecksumSumsBytesOneToNine := by
  intro cmd a
  rw [getD_frameBytes_checksum]
  refine ⟨?_, checksum_params_eq_add cmd a, fun _ => rfl⟩
  rw [checksum_params, BitVec.toNat_ofNat]

/-! ### Latching the frame -/

/-- The latched frame reads back from TXF[0..11]. -/
theorem bytesFrom_txf_latchFrame (s : State) : s.latchFrame.bytesFrom .txf 0 12 = s.frame :=
  s.bytesFrom_writeBytes .txf 0 s.frame

/-- Latching leaves TXF beyond the twelve bytes of a frame. -/
theorem byteAt_txf_latchFrame_of_ge (s : State) {i : Nat} (h : 12 ≤ i) :
    s.latchFrame.byteAt .txf i = s.byteAt .txf i := by
  have hout : ¬ (0 ≤ i ∧ i < 0 + s.frame.length) := by
    rw [State.frame, length_frameBytes]
    omega
  rw [State.latchFrame, State.byteAt_writeBytes_same, if_neg hout]

/-- The end of a pure operation leaves what a buffer reads as. -/
theorem bytesFrom_complete (s : State) (b : Buf) (i n : Nat) :
    s.complete.bytesFrom b i n = s.bytesFrom b i n :=
  State.bytesFrom_congr (by cases b <;> rfl) rfl i n

/-- The frame of CHANNEL and x[0..8] written out (R100, R101). -/
theorem State.frame_eq (s : State) : s.frame =
    [s.channel, s.x[0], s.x[1], s.x[2], s.x[3], s.x[4], s.x[5], s.x[6], s.x[7], s.x[8], 0x00,
      BitVec.ofNat 8 (s.x[0].toNat + s.x[1].toNat + s.x[2].toNat + s.x[3].toNat + s.x[4].toNat
        + s.x[5].toNat + s.x[6].toNat + s.x[7].toNat + s.x[8].toNat)] := by
  rw [State.frame, frameBytes, checksum_params]
  rfl

theorem exec_build_of_idle {s : State} (hb : s.busy = false) :
    exec .build s = .next s.latchFrame.complete :=
  congrArg Host.Outcome.next (State.whenIdle_of_idle hb State.buildOp)

/-- Settles O8: while idle BUILD latches the frame and completes, while busy it is ignored like every
start. -/
theorem buildWritesFrame : Obligations.BuildWritesFrame := by
  intro s
  refine ⟨startIgnoredWhileBusy .build s, fun hb => ⟨_, exec_build_of_idle hb, ?_, fun i hi => ?_, ?_⟩⟩
  · rw [bytesFrom_complete, bytesFrom_txf_latchFrame, State.frame_eq]
  · rw [State.byteAt_complete, byteAt_txf_latchFrame_of_ge s hi]
  · rw [State.complete_eq]
    exact ⟨rfl, rfl, rfl, rfl, rfl⟩

/-! ### What the frame invariant reads -/

/-- The fields the frame invariant reads. -/
def State.frameFields (s : State) : Memory × Bool × Byte := (s.txf, s.busy, s.lcmd)

theorem State.FrameLegal.of_frameFields_eq {s t : State} (h : s.FrameLegal)
    (e : t.frameFields = s.frameFields) : t.FrameLegal := by
  simp only [State.frameFields, Prod.mk.injEq] at e
  obtain ⟨htxf, hbusy, hcmd⟩ := e
  exact ⟨by simpa [htxf] using h.lawful, by simpa [htxf, hbusy, hcmd] using h.latched⟩

theorem State.frameFields_regStore (s : State) (r : HostReg) (v : BusWord) :
    (s.regStore r v).frameFields = s.frameFields := by
  cases r <;> rfl

/-- A host buffer write does not reach TXF (R23). -/
theorem State.frameFields_writeBytes (s : State) {b : Buf} (hw : b.hostWritable = true) (i : Nat)
    (bs : List Byte) : (s.writeBytes b i bs).frameFields = s.frameFields := by
  cases b with
  | txf | ibuf => cases hw
  | _ => rfl

theorem State.frameFields_store (s : State) (bs : List Byte) :
    (s.store bs).frameFields = s.frameFields := by
  rw [State.store_frame]; rfl

theorem State.frameFields_acknowledged {s d : State} {bs : List Byte} {c : Byte}
    (hd : d = (s.store bs).ackDecode c) : d.frameFields = s.frameFields := by
  subst hd
  exact s.frameFields_store bs

/-- The operands a start of RUN finds are none of these fields. -/
theorem Loaded.frameFields_eq {s v : State} (h : Loaded s v) : v.frameFields = s.frameFields := by
  cases h <;> rfl

theorem State.frameFields_markFault (s : State) (c : ResultClass) :
    (s.markFault c).frameFields = s.frameFields := by
  unfold State.markFault
  split <;> rfl

/-! ### The ends of a cycle -/

/-- After a cycle no frame is in flight, and TXF is as it was (R198). -/
theorem State.FrameLegal.endCycle {s : State} (h : s.FrameLegal) (q : SeqState) (r : ResultClass)
    (c : Byte) : (s.endCycle q r c).FrameLegal where
  lawful := h.lawful
  latched := by rintro ⟨⟩

theorem State.FrameLegal.normalEnd {s : State} (h : s.FrameLegal) : s.normalEnd.FrameLegal :=
  h.endCycle _ _ _

theorem State.FrameLegal.deviceErrorEnd {s : State} (h : s.FrameLegal) : s.deviceErrorEnd.FrameLegal :=
  (h.of_frameFields_eq (t := s.emit .deverr (some s.errcode)) rfl).endCycle _ _ _

theorem State.FrameLegal.raiseFault {s : State} (h : s.FrameLegal) (c : ResultClass) :
    (s.raiseFault c).FrameLegal :=
  (h.of_frameFields_eq (s.frameFields_markFault c)).endCycle _ _ _

/-! ### A new frame in TXF -/

/-- A block that covers all of a memory replaces it. -/
theorem Memory.writeBlock_zero_of_within {m : Memory} {bs : List Byte} (h : m.within bs.length) :
    m.writeBlock 0 bs = cellsFrom 0 bs := by
  have hbefore : m.filter (fun c => c.1 < 0) = [] := by simp
  have hafter : m.filter (fun c => 0 + bs.length ≤ c.1) = [] := by
    simp only [Nat.zero_add, List.filter_eq_nil_iff, decide_eq_true_eq, Nat.not_le]
    exact h
  rw [Memory.writeBlock, hbefore, hafter, List.nil_append, List.append_nil]

theorem length_of_frameLawful {f : List Byte} (h : frameLawful f = true) : f.length = 12 := by
  simp only [frameLawful, Bool.and_eq_true, beq_iff_eq] at h
  obtain ⟨⟨hlen, _⟩, _⟩ := h
  exact hlen

/-- A lawful TXF lists no index at or beyond 12. -/
theorem State.FrameLegal.txf_within {s : State} (h : s.FrameLegal) : s.txf.within 12 := by
  intro c hc
  obtain ⟨f, hf, hlaw⟩ := h.lawful (List.ne_nil_of_mem hc)
  obtain ⟨_, hlt⟩ := mem_cellsFrom (hf ▸ hc)
  rwa [Nat.zero_add, length_of_frameLawful hlaw] at hlt

/-- What TXF held before is replaced whole by the latched frame (R100). -/
theorem State.FrameLegal.writeBlock_frame {s : State} (h : s.FrameLegal) :
    s.txf.writeBlock 0 s.frame = cellsFrom 0 s.frame :=
  Memory.writeBlock_zero_of_within h.txf_within

/-- A state whose TXF holds a frame, that of LCMD while a cycle is in flight. -/
theorem frameLegal_of_txf_eq_frame {t : State} {cmd : Byte} {a : FrameArgs}
    (htxf : t.txf = cellsFrom 0 (frameBytes cmd a)) (hcmd : t.busy = true → t.lcmd = cmd) :
    t.FrameLegal where
  lawful _ := ⟨_, htxf, frameLawful_frameBytes cmd a⟩
  latched hb := ⟨_, htxf, frameLawful_frameBytes cmd a, congrArg some (hcmd hb).symm⟩

/-- BUILD puts a frame into TXF while no cycle is in flight (R100). -/
theorem State.FrameLegal.latchFrame {s : State} (h : s.FrameLegal) (hb : s.busy = false) :
    s.latchFrame.FrameLegal :=
  frameLegal_of_txf_eq_frame h.writeBlock_frame fun hbusy => absurd (hb.symm.trans hbusy) Bool.false_ne_true

/-- RUN puts the frame of x[0] into TXF and x[0] into LCMD (R190). -/
theorem State.FrameLegal.runAccept {s : State} (h : s.FrameLegal) : s.runAccept.FrameLegal := by
  rw [State.runAccept_eq]
  exact frameLegal_of_txf_eq_frame h.writeBlock_frame fun _ => rfl

/-! ### Every step -/

/-- After Reset TXF is unwritten and no cycle is in flight (R30). -/
theorem frameLegal_onReset (s : State) : s.onReset.FrameLegal where
  lawful h := absurd rfl h
  latched := by rintro ⟨⟩

/-- Every reaction keeps the frame invariant: only BUILD and RUN write TXF, only RUN begins a cycle. -/
theorem Reaction.keeps_frameLegal {s t : State} {e : EnvEvent} (hr : Reaction s e t)
    (h : s.FrameLegal) : t.FrameLegal := by
  cases hr with
  | accepted _ _ _ v hv => exact (h.of_frameFields_eq hv.frameFields_eq).runAccept
  | build _ _ hb => exact (h.latchFrame hb).of_frameFields_eq rfl
  | refused _ _ _ v hv c => exact h.of_frameFields_eq (t := v.refuse c) hv.frameFields_eq
  | regWrite r n v => exact h.of_frameFields_eq (s.frameFields_regStore r v)
  | bufWrite b i v _ hw => exact h.of_frameFields_eq (s.frameFields_writeBytes hw i [v])
  | openFail => exact h.raiseFault _
  | writeTimeout | ackTimeout | payloadTimeout =>
    refine State.FrameLegal.raiseFault ?_ _
    exact h.of_frameFields_eq rfl
  | writtenBaud => exact h.normalEnd
  | chunkAck b bs | chunkPayload b bs => exact h.of_frameFields_eq (s.frameFields_store _)
  | ackError b bs _ d hd => exact (h.of_frameFields_eq (State.frameFields_acknowledged hd)).deviceErrorEnd
  | ackEnd b bs _ d hd => exact (h.of_frameFields_eq (State.frameFields_acknowledged hd)).normalEnd
  | ackPayload b bs _ d hd =>
    exact (h.of_frameFields_eq (State.frameFields_acknowledged hd)).of_frameFields_eq rfl
  | payloadEnd b bs => exact (h.of_frameFields_eq (s.frameFields_store _)).normalEnd
  | reset => exact frameLegal_onReset s
  | ignored => exact h
  | flagged | id2b | decack | enctpl | decdir | nextfree | flipimg | read | openOk | written
  | tickSending | tickWindow | windowAck | windowUnbounded | windowPayload | presence =>
    exact h.of_frameFields_eq rfl

/-- Settles O58: a step takes an event off the queue, and every reaction to it keeps the invariant. -/
theorem stepKeepsFrameLegal : Obligations.StepKeepsFrameLegal := by
  intro s t h hstep
  rcases step_cases hstep with ⟨_, rfl⟩ | ⟨e, es, _, hr⟩
  · exact h
  · exact hr.keeps_frameLegal (h.of_frameFields_eq rfl)

end Sys2Proof.Machine
end

section
/-! PROOFS. The Response Decoder (`41_response_decoder.md`): packed-decimal pairs against the id bytes of
`43_record_codec.md` R165, the declared length by command, and what DECACK decodes (R112 to R118). -/

namespace Sys2Proof.Machine

/-! ### Packed-decimal pairs -/

/-- All four nibbles of a pair are decimal digits (R112). -/
def DecimalPair (lo hi : Byte) : Prop :=
  lo.toNat / 16 ≤ 9 ∧ lo.toNat % 16 ≤ 9 ∧ hi.toNat / 16 ≤ 9 ∧ hi.toNat % 16 ≤ 9

/-- The number four nibbles spell, read as decimal digits (R112). -/
def decimalValue (lo hi : Byte) : Nat :=
  1000 * (hi.toNat / 16) + 100 * (hi.toNat % 16) + 10 * (lo.toNat / 16) + lo.toNat % 16

theorem pairval_of_decimal {lo hi : Byte} (h : DecimalPair lo hi) :
    pairval lo hi = (decimalValue lo hi, true) := by
  obtain ⟨hlo1, hlo0, hhi1, hhi0⟩ := h
  exact if_pos ⟨hhi1, hhi0, hlo1, hlo0⟩

/-- A pair with a nibble above 9 reads as an invalid 0 (R113). -/
theorem pairval_of_not_decimal {lo hi : Byte} (h : ¬ DecimalPair lo hi) : pairval lo hi = (0, false) :=
  if_neg fun ⟨hhi1, hhi0, hlo1, hlo0⟩ => h ⟨hlo1, hlo0, hhi1, hhi0⟩

theorem pairval_valid_iff (lo hi : Byte) : (pairval lo hi).2 = true ↔ DecimalPair lo hi := by
  by_cases h : DecimalPair lo hi
  · simp only [pairval_of_decimal h, h]
  · simp only [pairval_of_not_decimal h, h, Bool.false_eq_true]

/-- The low id byte holds the tens and the units digit (R165). -/
theorem toNat_id2bLow (id : Nat) : (id2bLow id).toNat = 16 * (id / 10 % 10) + id % 10 := by
  rw [id2bLow, BitVec.toNat_ofNat, Nat.mod_eq_of_lt (by omega)]

/-- The high id byte of a four-digit id holds the thousands and the hundreds digit (R165). -/
theorem toNat_id2bHigh {id : Nat} (h : id ≤ 9999) :
    (id2bHigh id).toNat = 16 * (id / 1000) + id / 100 % 10 := by
  rw [id2bHigh, BitVec.toNat_ofNat, Nat.mod_eq_of_lt (by omega)]

theorem decimalPair_id2b {id : Nat} (h : id ≤ 9999) : DecimalPair (id2bLow id) (id2bHigh id) := by
  rw [DecimalPair, toNat_id2bLow, toNat_id2bHigh h]
  omega

/-- The digits of an id spell it. -/
theorem decimalValue_id2b {id : Nat} (h : id ≤ 9999) : decimalValue (id2bLow id) (id2bHigh id) = id := by
  rw [decimalValue, toNat_id2bLow, toNat_id2bHigh h]
  omega

theorem decimalValue_le {lo hi : Byte} (h : DecimalPair lo hi) : decimalValue lo hi ≤ 9999 := by
  obtain ⟨hlo1, hlo0, hhi1, hhi0⟩ := h
  unfold decimalValue
  omega

theorem id2bLow_decimalValue {lo hi : Byte} (h : DecimalPair lo hi) : id2bLow (decimalValue lo hi) = lo := by
  obtain ⟨hlo1, hlo0, hhi1, hhi0⟩ := h
  apply BitVec.eq_of_toNat_eq
  rw [toNat_id2bLow, decimalValue]
  omega

theorem id2bHigh_decimalValue {lo hi : Byte} (h : DecimalPair lo hi) : id2bHigh (decimalValue lo hi) = hi := by
  have hle : decimalValue lo hi ≤ 9999 := decimalValue_le h
  obtain ⟨hlo1, hlo0, hhi1, hhi0⟩ := h
  have hhundreds : decimalValue lo hi / 100 = 10 * (hi.toNat / 16) + hi.toNat % 16 := by
    unfold decimalValue
    omega
  apply BitVec.eq_of_toNat_eq
  rw [toNat_id2bHigh hle]
  omega

/-- Settles O19, from the digits of an id and the value of four digits. -/
theorem packedDecimalRoundTrip : Obligations.PackedDecimalRoundTrip := by
  refine ⟨fun id hid => ?_, fun lo hi => ⟨pairval_valid_iff lo hi, fun hvalid => ?_, fun hinvalid => ?_⟩⟩
  · rw [pairval_of_decimal (decimalPair_id2b hid), decimalValue_id2b hid]
  · have hdec : DecimalPair lo hi := (pairval_valid_iff lo hi).1 hvalid
    rw [pairval_of_decimal hdec]
    exact ⟨decimalValue_le hdec, id2bLow_decimalValue hdec, id2bHigh_decimalValue hdec⟩
  · have hdec : ¬ DecimalPair lo hi := fun h => by
      rw [(pairval_valid_iff lo hi).2 h] at hinvalid
      cases hinvalid
    rw [pairval_of_not_decimal hdec]

/-! ### The declared length -/

/-- A device error declares no payload (R116). -/
theorem declaredLength_of_error {err : Byte} (h : err ≠ 0) (c : Byte) (p1 rlen expect : Nat) :
    declaredLength c err p1 rlen expect = 0 :=
  if_pos h

theorem declaredLength_list {c err : Byte} (he : err = 0) (hc : c = 0x7D) (p1 rlen expect : Nat) :
    declaredLength c err p1 rlen expect = p1 * 12 := by
  subst he hc; rfl

theorem declaredLength_getTemplate {c err : Byte} (he : err = 0) (hc : c = 0x73) (p1 rlen expect : Nat) :
    declaredLength c err p1 rlen expect = rlen - 12 := by
  subst he hc; rfl

theorem declaredLength_getImage {c err : Byte} (he : err = 0) (hc : c = 0x43) (p1 rlen expect : Nat) :
    declaredLength c err p1 rlen expect = expect := by
  subst he hc; rfl

/-- A command without a payload declares none (R116). -/
theorem declaredLength_of_no_payload {c : Byte} (hlist : c ≠ 0x7D) (htemplate : c ≠ 0x73) (himage : c ≠ 0x43)
    (err : Byte) (p1 rlen expect : Nat) : declaredLength c err p1 rlen expect = 0 := by
  unfold declaredLength
  rw [if_neg hlist, if_neg htemplate, if_neg himage, ite_self]

/-- The declared length fits DECLEN. -/
theorem declaredLength_lt (c err : Byte) {p1 rlen expect : Nat} (hp : p1 ≤ 9999) (hr : rlen < 2 ^ 32)
    (he : expect < 2 ^ 32) : declaredLength c err p1 rlen expect < 2 ^ 32 := by
  unfold declaredLength
  split_ifs <;> omega

/-! ### What the ack decode step leaves in the registers -/

/-- A value of four decimal digits fits PARAM1 and PARAM2. -/
theorem toNat_ofNat_14_pairval (lo hi : Byte) :
    (BitVec.ofNat 14 (pairval lo hi).1).toNat = (pairval lo hi).1 := by
  have hle : (pairval lo hi).1 ≤ 9999 := pairval_le lo hi
  rw [BitVec.toNat_ofNat, Nat.mod_eq_of_lt (by omega)]

theorem State.toNat_param1_ackDecode (s : State) (c : Byte) :
    (s.ackDecode c).param1.toNat = s.ackPair1.1 :=
  toNat_ofNat_14_pairval _ _

theorem State.toNat_param2_ackDecode (s : State) (c : Byte) :
    (s.ackDecode c).param2.toNat = s.ackPair2.1 :=
  toNat_ofNat_14_pairval _ _

theorem State.toNat_declen_ackDecode (s : State) (c : Byte) : (s.ackDecode c).declen.toNat =
    declaredLength c (s.byteAt .ack 2) s.ackPair1.1 s.rlen.toNat s.expectLen.toNat := by
  have hle : s.ackPair1.1 ≤ 9999 := pairval_le _ _
  rw [State.ackDecode_eq, BitVec.toNat_ofNat,
    Nat.mod_eq_of_lt (declaredLength_lt _ _ hle s.rlen.isLt s.expectLen.isLt)]

/-! ### DECACK -/

theorem exec_decack_of_idle {s : State} (hb : s.busy = false) :
    exec .decack s = .next (s.ackDecode s.x[0]).complete :=
  congrArg Host.Outcome.next (State.whenIdle_of_idle hb State.decackOp)

/-- Settles O28: the registers the ack decode step writes one by one, the declared length by its cases, and
the end of a pure operation. -/
theorem decackDecodesAcknowledgment : Obligations.DecackDecodesAcknowledgment := by
  intro s hb err p1 p2
  have hlen : (s.ackDecode s.x[0]).complete.declen.toNat =
      declaredLength s.x[0] err p1.1 s.rlen.toNat s.expectLen.toNat := s.toNat_declen_ackDecode _
  refine ⟨_, exec_decack_of_idle hb, rfl, s.toNat_param1_ackDecode s.x[0], rfl,
    s.toNat_param2_ackDecode s.x[0], rfl, ?error, ?list, ?template, ?image, ?none, ?badDigit, ?frame⟩
  case error => exact fun herr => hlen.trans (declaredLength_of_error herr ..)
  case list => exact fun herr hcmd => hlen.trans (declaredLength_list herr hcmd ..)
  case template => exact fun herr hcmd => hlen.trans (declaredLength_getTemplate herr hcmd ..)
  case image =>
    exact fun herr hcmd => BitVec.eq_of_toNat_eq (hlen.trans (declaredLength_getImage herr hcmd ..))
  case none =>
    exact fun hlist htemplate himage =>
      hlen.trans (declaredLength_of_no_payload hlist htemplate himage ..)
  case badDigit =>
    have hflag : (s.ackDecode s.x[0]).complete.wBadDigit = (s.wBadDigit || !(p1.2 && p2.2)) := rfl
    rw [hflag, Bool.not_and, Bool.or_assoc]
  case frame => rw [State.complete_eq, State.ackDecode_eq]

end Sys2Proof.Machine
end

section
/-! PROOFS. A command cycle from its issue to the wait for its acknowledgment (`44_device_facade.md` R190,
`42_transport_session.md` R130 to R138), and the template fetch, which takes what came in the chunk of its
acknowledgment (`44_device_facade.md` R214, `41_response_decoder.md` R116). -/

namespace Sys2Proof.Machine

/-! ### The events of a command cycle, taken one by one -/

/-- The step on a command's frame issues the command. -/
theorem step_hostCommand {s : State} {c : Command} {a : FrameArgs} {f : Vector Byte 12} {es : List EnvEvent}
    (hf : f.toList = encode (c.instr a)) (hs : s.inbox = .hostCommand f :: es) :
    step s = .next ((s.withInbox es).issue c.byte a) := by
  have hd : decode f.toList = .ok (c.instr a) := by
    rw [hf, encode_commandInstr, decode_frameBytes]
  rw [step_of_inbox_cons hs, runEvent_of_decode_ok rfl hd, exec_commandInstr]
  rfl

theorem step_tpOpenOk {s : State} {es : List EnvEvent} (hst : s.st = .configuring)
    (hs : s.inbox = .tpOpenOk :: es) : step s = .next (s.withInbox es).onTpOpenOk := by
  rw [step_of_word_none hs rfl]
  simp only [State.react, State.withInbox, hst]

theorem step_txWritten {s : State} {es : List EnvEvent} (hst : s.st = .sending)
    (hs : s.inbox = .txWritten :: es) : step s = .next (s.withInbox es).onTxWritten := by
  rw [step_of_word_none hs rfl]
  simp only [State.react, State.withInbox, hst]

theorem step_rxChunk_of_awaitingAck {s : State} {b : Byte} {bs : List Byte} {es : List EnvEvent}
    (hst : s.st = .awaitingAck) (hs : s.inbox = .rxChunk b bs :: es) :
    step s = .next ((s.withInbox es).onChunkAck (b :: bs)) := by
  rw [step_of_word_none hs rfl]
  simp only [State.react, State.withInbox, hst]

/-! ### From the issue of a command to the wait for its acknowledgment -/

/-- The state after a command has been issued, accepted, and sent whole. -/
def State.commandSent (c : Command) (a : FrameArgs) (s : State) : State :=
  (s.loadOperands c.byte a).runAccept.onTpOpenOk.onTxWritten

theorem onTxWritten_withInbox (s : State) (q : List EnvEvent) :
    (s.withInbox q).onTxWritten = s.onTxWritten.withInbox q := by
  have hcmd : (s.withInbox q).lcmd = s.lcmd := rfl
  simp only [State.onTxWritten, hcmd]
  split
  · rfl
  · rfl

/-- Three events carry an accepted command from its issue to the completion of its write. -/
theorem runFor_commandSent {s : State} {c : Command} {a : FrameArgs} {f : Vector Byte 12}
    {es : List EnvEvent} (hb : s.busy = false) (hf : f.toList = encode (c.instr a))
    (hr : (s.loadOperands c.byte a).runRefusal = none)
    (hs : s.inbox = .hostCommand f :: .tpOpenOk :: .txWritten :: es) (k : Nat) :
    runFor (k + 3) s = runFor k ((s.commandSent c a).withInbox es) := by
  have hb' : (s.withInbox (.tpOpenOk :: .txWritten :: es)).busy = false := hb
  have hr' : ((s.withInbox (.tpOpenOk :: .txWritten :: es)).loadOperands c.byte a).runRefusal = none := hr
  have hissue : step s = .next
      ((s.loadOperands c.byte a).runAccept.withInbox (.tpOpenOk :: .txWritten :: es)) := by
    rw [step_hostCommand hf hs, State.issue_of_idle hb']
    exact congrArg _ (State.runOp_of_accepted hr')
  have hopen : step ((s.loadOperands c.byte a).runAccept.withInbox (.tpOpenOk :: .txWritten :: es)) =
      .next ((s.loadOperands c.byte a).runAccept.onTpOpenOk.withInbox (.txWritten :: es)) :=
    step_tpOpenOk (es := .txWritten :: es) rfl rfl
  have hsent : step ((s.loadOperands c.byte a).runAccept.onTpOpenOk.withInbox (.txWritten :: es)) =
      .next ((s.commandSent c a).withInbox es) :=
    (step_txWritten (es := es) rfl rfl).trans
      (congrArg _ (onTxWritten_withInbox (s.loadOperands c.byte a).runAccept.onTpOpenOk es))
  rw [runFor_succ _ hissue, runFor_succ _ hopen, runFor_succ _ hsent]

/-- Every command but BAUD then waits for its acknowledgment (R135). -/
theorem commandSent_of_ne_baud {c : Command} (hc : c ≠ .baud) (a : FrameArgs) (s : State) :
    s.commandSent c a = { (s.loadOperands c.byte a).runAccept.onTpOpenOk with
      wtimer := 0, retry := 0, st := .awaitingAck } := by
  have hbyte : c.byte ≠ 0x21 := by
    cases c with
    | baud => exact absurd rfl hc
    | _ => decide
  exact if_neg hbyte

theorem st_commandSent {c : Command} (hc : c ≠ .baud) (a : FrameArgs) (s : State) :
    (s.commandSent c a).st = .awaitingAck := by
  rw [commandSent_of_ne_baud hc]

theorem lcmd_commandSent {c : Command} (hc : c ≠ .baud) (a : FrameArgs) (s : State) :
    (s.commandSent c a).lcmd = c.byte := by
  rw [commandSent_of_ne_baud hc]; rfl

/-- Nothing of the response has been received (R190). -/
theorem rlen_commandSent {c : Command} (hc : c ≠ .baud) (a : FrameArgs) (s : State) :
    (s.commandSent c a).rlen = 0 := by
  rw [commandSent_of_ne_baud hc]; rfl

theorem cfg_commandSent {c : Command} (hc : c ≠ .baud) (a : FrameArgs) (s : State) :
    (s.commandSent c a).cfg = s.cfg := by
  rw [commandSent_of_ne_baud hc]; rfl

/-- The refusal conditions of RUN do not concern GET_TEMPLATE (R191). -/
theorem runRefusal_getTemplate (s : State) (a : FrameArgs) :
    (s.loadOperands Command.getTemplate.byte a).runRefusal = none :=
  State.runRefusal_eq_none.2 ⟨nofun, by rintro ⟨⟩, by rintro ⟨⟩⟩

/-! ### A chunk that holds a whole acknowledgment -/

theorem State.lcmd_store (s : State) (bs : List Byte) : (s.store bs).lcmd = s.lcmd := by
  rw [State.store_frame]

theorem State.cfg_store (s : State) (bs : List Byte) : (s.store bs).cfg = s.cfg := by
  rw [State.store_frame]

theorem State.inbox_store (s : State) (bs : List Byte) : (s.store bs).inbox = s.inbox := by
  rw [State.store_frame]

theorem State.inbox_ackDecode (s : State) (c : Byte) : (s.ackDecode c).inbox = s.inbox := rfl

/-- The first chunk of a response counts its bytes. -/
theorem State.toNat_rlen_store_of_zero {s : State} (h : s.rlen.toNat = 0) {bs : List Byte}
    (hlen : bs.length < 2 ^ 32) : (s.store bs).rlen.toNat = bs.length := by
  obtain ⟨hrlen, -⟩ := chunkStoredInOrder s bs
  rw [hrlen, h]
  omega

/-- The first twelve bytes of a response stand in ACK. -/
theorem State.byteAt_ack_store_of_zero {s : State} (h : s.rlen.toNat = 0) {bs : List Byte}
    (hlen : bs.length < 2 ^ 32) {i : Nat} (hi : i < bs.length) (hi' : i < 12) :
    (s.store bs).byteAt .ack i = bs.getD i 0 := by
  obtain ⟨-, -, hbytes⟩ := chunkStoredInOrder s bs
  obtain ⟨hack, -⟩ := hbytes (by simpa [h] using hlen)
  rw [hack, h]
  simp [hi, hi']

/-- What follows the twelve bytes stands in PBUF. -/
theorem State.bytesFrom_pbuf_store_of_zero {s : State} (h : s.rlen.toNat = 0) {ack p : List Byte}
    (hack : ack.length = 12) (hlen : p.length + 12 < 2 ^ 32) (hcap : p.length ≤ s.cfg.pbufCap) :
    (s.store (ack ++ p)).bytesFrom .pbuf 0 p.length = p := by
  obtain ⟨-, -, hbytes⟩ := chunkStoredInOrder s (ack ++ p)
  obtain ⟨-, hpbuf, -⟩ := hbytes (by simp [h, hack]; omega)
  apply List.ext_getElem (State.length_bytesFrom ..)
  intro i hi hi'
  have hin : s.rlen.toNat ≤ i + 12 ∧ i + 12 < s.rlen.toNat + (ack ++ p).length ∧ i < s.cfg.pbufCap := by
    rw [List.length_append]
    omega
  have hbyte : (s.store (ack ++ p)).byteAt .pbuf i = p[i] := by
    rw [hpbuf, if_pos hin, h, Nat.sub_zero, List.getD_append_right _ _ _ _ (by omega), hack,
      Nat.add_sub_cancel, List.getD_eq_getElem _ _ hi']
  simp only [State.bytesFrom, List.getElem_map, List.getElem_range, Nat.zero_add, hbyte]

/-- A complete acknowledgment without error and with no payload left to wait for ends the cycle (R195,
R197). -/
theorem State.onChunkAck_eq_normalEnd {s : State} {bs : List Byte} (hr : 12 ≤ (s.store bs).rlen.toNat)
    (he : (s.store bs).byteAt .ack 2 = 0)
    (hp : ((s.store bs).ackDecode s.lcmd).payloadComplete = true) :
    s.onChunkAck bs = ((s.store bs).ackDecode s.lcmd).normalEnd := by
  have herr : ¬ ((s.store bs).ackDecode s.lcmd).errcode ≠ 0 := not_not.2 he
  simp only [State.onChunkAck, if_pos hr, State.ackComplete, State.lcmd_store, if_neg herr, if_pos hp]

/-! ### The template fetch -/

/-- GET_TEMPLATE waits for nothing beyond its acknowledgment: what has arrived is its payload (R116,
R214). -/
theorem State.payloadComplete_getTemplate {s : State} {c : Byte} (hc : c = 0x73)
    (he : s.byteAt .ack 2 = 0) : (s.ackDecode c).payloadComplete = true := by
  have hlen : (s.ackDecode c).declen.toNat = s.rlen.toNat - 12 :=
    (s.toNat_declen_ackDecode c).trans (declaredLength_getTemplate he hc ..)
  exact decide_eq_true hlen.le

/-- DECLEN of a template fetch is the number of payload bytes that have arrived (R116). -/
theorem State.toNat_declen_getTemplate {s : State} (he : s.byteAt .ack 2 = 0) :
    (s.ackDecode 0x73).declen.toNat = s.rlen.toNat - 12 :=
  (s.toNat_declen_ackDecode 0x73).trans (declaredLength_getTemplate he rfl ..)

/-- How a template fetch that brought `p` ends (R116, R197, R214). -/
structure State.HoldsTemplate (p : List Byte) (t : State) : Prop where
  idle : t.st = .idle
  resultClass : t.resultClass = .ok
  resultCode : t.resultCode = 0
  rlen : t.rlen.toNat = 12 + p.length
  declen : t.declen.toNat = p.length
  plen : t.plen = p.length
  pbuf : t.bytesFrom .pbuf 0 p.length = p

/-- The normal end of a cycle whose registers and PBUF hold a template leaves them so (R197). -/
theorem State.holdsTemplate_normalEnd {d : State} {p : List Byte} (hrlen : d.rlen.toNat = 12 + p.length)
    (hdeclen : d.declen.toNat = p.length) (hcap : p.length ≤ d.cfg.pbufCap)
    (hpbuf : d.bytesFrom .pbuf 0 p.length = p) : d.normalEnd.HoldsTemplate p where
  idle := State.endCycle_st ..
  resultClass := State.endCycle_resultClass ..
  resultCode := State.endCycle_resultCode ..
  rlen := by rw [State.normalEnd, State.endCycle_rlen, hrlen]
  declen := by rw [State.normalEnd, State.endCycle_declen, hdeclen]
  plen := by
    rw [State.plen, State.normalEnd, State.endCycle_rlen, State.endCycle_cfg, hrlen,
      Nat.add_sub_cancel_left, Nat.min_eq_left hcap]
  pbuf :=
    (State.bytesFrom_congr (b := .pbuf) (State.endCycle_pbuf ..) (State.endCycle_epoch ..) ..).trans hpbuf

/-- A success acknowledgment stored with `p` after it decodes to a payload of `p` (R116). -/
theorem State.holdsTemplate_ackDecode {r : State} {p : List Byte} (he : r.byteAt .ack 2 = 0)
    (hrlen : r.rlen.toNat = 12 + p.length) (hcap : p.length ≤ r.cfg.pbufCap)
    (hpbuf : r.bytesFrom .pbuf 0 p.length = p) : (r.ackDecode 0x73).normalEnd.HoldsTemplate p := by
  refine State.holdsTemplate_normalEnd hrlen ?declen hcap hpbuf
  rw [State.toNat_declen_getTemplate he, hrlen, Nat.add_sub_cancel_left]

/-- One chunk of a success acknowledgment and `p` ends a template fetch that had received nothing. -/
theorem State.holdsTemplate_onChunkAck {w : State} {ack p : List Byte} (hcmd : w.lcmd = 0x73)
    (hzero : w.rlen.toNat = 0) (hack : ack.length = 12) (herr : ack.getD 2 0 = 0)
    (hlen : p.length + 12 < 2 ^ 32) (hcap : p.length ≤ w.cfg.pbufCap) :
    (w.onChunkAck (ack ++ p)).HoldsTemplate p ∧ (w.onChunkAck (ack ++ p)).inbox = w.inbox := by
  have hchunk : (ack ++ p).length = 12 + p.length := by rw [List.length_append, hack]
  have hrlen : (w.store (ack ++ p)).rlen.toNat = 12 + p.length :=
    (State.toNat_rlen_store_of_zero hzero (by omega)).trans hchunk
  have he : (w.store (ack ++ p)).byteAt .ack 2 = 0 := by
    rw [State.byteAt_ack_store_of_zero hzero (by omega) (by omega) (by omega),
      List.getD_append _ _ _ _ (by omega), herr]
  have hfits : p.length ≤ (w.store (ack ++ p)).cfg.pbufCap := by
    rw [State.cfg_store]
    exact hcap
  have hend : w.onChunkAck (ack ++ p) = ((w.store (ack ++ p)).ackDecode w.lcmd).normalEnd :=
    State.onChunkAck_eq_normalEnd (by omega) he (State.payloadComplete_getTemplate hcmd he)
  have hpbuf := State.bytesFrom_pbuf_store_of_zero hzero hack hlen hcap
  rw [hend, hcmd]
  refine ⟨State.holdsTemplate_ackDecode he hrlen hfits hpbuf, ?_⟩
  rw [State.normalEnd, State.endCycle_inbox, State.inbox_ackDecode, State.inbox_store]

/-- Settles O43: after three events the template fetch awaits its acknowledgment; the fourth brings it, and
what came with it, and ends the cycle. -/
theorem getTemplateTakesWhatArrived : Obligations.GetTemplateTakesWhatArrived := by
  intro s a f b bs p es hb hf hbs herr hcap hp hs
  have hc : Command.getTemplate ≠ .baud := by decide
  have hack : (b :: bs).length = 12 := by rw [List.length_cons, hbs]
  have hsent := runFor_commandSent hb hf (runRefusal_getTemplate s a) hs 1
  have hchunk : step ((s.commandSent .getTemplate a).withInbox (.rxChunk b (bs ++ p) :: es)) =
      .next (((s.commandSent .getTemplate a).withInbox es).onChunkAck ((b :: bs) ++ p)) :=
    step_rxChunk_of_awaitingAck (es := es) (st_commandSent hc a s) rfl
  obtain ⟨⟨hst, hclass, hcode, hrlen, hdeclen, hplen, hpbuf⟩, hinbox⟩ :=
    State.holdsTemplate_onChunkAck (w := (s.commandSent .getTemplate a).withInbox es)
      (lcmd_commandSent hc a s) (congrArg BitVec.toNat (rlen_commandSent hc a s)) hack herr hp
      (hcap.trans (congrArg Params.pbufCap (cfg_commandSent hc a s)).ge)
  exact ⟨_, (hsent.trans (runFor_one _)).trans hchunk, hst, hclass, hcode, hrlen, hdeclen, hplen, hpbuf,
    hinbox⟩

end Sys2Proof.Machine
end

section
/-! PROOFS. The sequencer invariant (`42_transport_session.md` R131 to R145, `44_device_facade.md` R190 to
R195): outside a cycle nothing is asked but that BUSY is 0; for each transition inside one, what it leaves. -/

namespace Sys2Proof

theorem Params.rxWindowTicks_pos (p : Params) : 0 < p.rxWindowTicks := Nat.succ_pos _

theorem Params.writeTimeoutTicks_pos (p : Params) : 0 < p.writeTimeoutTicks := Nat.succ_pos _

end Sys2Proof

namespace Sys2Proof.Machine

/-! ### What the sequencer invariant reads -/

/-- The fields the sequencer invariant reads. -/
def State.sequencing (s : State) : Bool × SeqState × Byte × BitVec 16 × BitVec 32 × Params × BitVec 32 ×
    BitVec 32 × BitVec 3 × Byte × BitVec 32 × BitVec 16 × BitVec 16 :=
  (s.busy, s.st, s.lcmd, s.txlen, s.expectLen, s.cfg, s.rlen, s.wtimer, s.retry, s.errcode, s.declen,
    s.payloadRetryLimit, s.pretry)

theorem State.SequencerLegal.of_sequencing_eq {s t : State} (h : s.SequencerLegal)
    (e : t.sequencing = s.sequencing) : t.SequencerLegal := by
  simp only [State.sequencing, Prod.mk.injEq] at e
  obtain ⟨hbusy, hst, hcmd, htxlen, hexp, hcfg, hrlen, htimer, hretry, herr, hdec, hlimit, hpretry⟩ := e
  constructor
  · rw [hbusy, hst]; exact h.busyIffInCycle
  · rw [hbusy, hcmd]; exact h.commandLegal
  · rw [hbusy, hcmd, htxlen]; exact h.recordFits
  · rw [hbusy, hcmd, hexp, hcfg]; exact h.imageFits
  · rw [hst, hrlen]; exact h.nothingReceived
  · rw [hst, htimer, hcfg]; exact h.writeRuns
  · rw [hst, htimer, hcfg]; exact h.windowRuns
  · rw [hst, hrlen, hretry, hcmd]; exact h.ackPending
  · rw [hst, herr, hrlen, hdec, hcmd]; exact h.payloadPending
  · rw [hst, hlimit, hpretry]; exact h.payloadBudget

/-- Outside a cycle nothing is asked but that BUSY is 0. -/
theorem sequencerLegal_of_noCycle {t : State} (hb : t.busy = false) (hst : t.st.inCycle = false) :
    t.SequencerLegal := by
  have hidle : ∀ q : SeqState, q.inCycle = true → t.st ≠ q := by
    rintro q hq rfl
    rw [hst] at hq
    cases hq
  have hbusy : t.busy ≠ true := by simp [hb]
  exact {
    busyIffInCycle := hb.trans hst.symm
    commandLegal := fun h => absurd h hbusy
    recordFits := fun h => absurd h hbusy
    imageFits := fun h => absurd h hbusy
    nothingReceived := fun h => h.elim (absurd · (hidle _ rfl)) (absurd · (hidle _ rfl))
    writeRuns := fun h => absurd h (hidle _ rfl)
    windowRuns := fun h => h.elim (absurd · (hidle _ rfl)) (absurd · (hidle _ rfl))
    ackPending := fun h => absurd h (hidle _ rfl)
    payloadPending := fun h => absurd h (hidle _ rfl)
    payloadBudget := fun h => absurd h (hidle _ rfl) }

/-- What leaves BUSY and ST as they were while no cycle is in flight keeps the invariant. -/
theorem State.SequencerLegal.of_idle {s t : State} (h : s.SequencerLegal) (hb : s.busy = false)
    (ebusy : t.busy = s.busy) (est : t.st = s.st) : t.SequencerLegal :=
  sequencerLegal_of_noCycle (ebusy.trans hb) (by rw [est, ← h.busyIffInCycle, hb])

theorem State.SequencerLegal.busy_of_inCycle {s : State} (h : s.SequencerLegal) {q : SeqState}
    (hst : s.st = q) (hq : q.inCycle = true) : s.busy = true := by
  rw [h.busyIffInCycle, hst, hq]

/-- The end of a cycle leaves no cycle in flight (R198). -/
theorem sequencerLegal_endCycle (s : State) {q : SeqState} (hq : q.inCycle = false) (r : ResultClass)
    (c : Byte) : (s.endCycle q r c).SequencerLegal :=
  sequencerLegal_of_noCycle rfl hq

theorem sequencerLegal_normalEnd (s : State) : s.normalEnd.SequencerLegal :=
  sequencerLegal_endCycle s rfl _ _

theorem sequencerLegal_deviceErrorEnd (s : State) : s.deviceErrorEnd.SequencerLegal :=
  sequencerLegal_endCycle _ rfl _ _

theorem sequencerLegal_raiseFault (s : State) (c : ResultClass) : (s.raiseFault c).SequencerLegal :=
  sequencerLegal_endCycle _ rfl _ _

/-! ### The states of a cycle -/

/-- A counter short of its limit that does not meet it with the next count is short of it still. -/
theorem toNat_add_one_lt {w : Nat} {c : BitVec w} {n : Nat} (h : c.toNat < n)
    (hne : (c + 1).toNat ≠ n) : (c + 1).toNat < n := by
  have hone : (c + 1).toNat ≤ c.toNat + 1 := by
    rw [BitVec.toNat_add]
    refine (Nat.mod_le _ _).trans (Nat.add_le_add_left ?_ _)
    simpa using Nat.mod_le 1 (2 ^ w)
  omega

/-- An accepted RUN begins a cycle with an admissible command and nothing received (R190, R191). -/
theorem sequencerLegal_runAccept {s : State} (hr : s.runRefusal = none) : s.runAccept.SequencerLegal := by
  obtain ⟨hcmd, hrecord, himage⟩ := State.runRefusal_eq_none.1 hr
  rw [State.runAccept_eq]
  exact {
    busyIffInCycle := rfl
    commandLegal := fun _ => hcmd
    recordFits := fun _ => hrecord
    imageFits := fun _ => himage
    nothingReceived := fun _ => rfl
    writeRuns := nofun
    windowRuns := nofun
    ackPending := nofun
    payloadPending := nofun
    payloadBudget := nofun }

/-- The wait for the write begins with nothing received (R131, R133). -/
theorem State.SequencerLegal.onTpOpenOk {s : State} (h : s.SequencerLegal) (hst : s.st = .configuring) :
    s.onTpOpenOk.SequencerLegal :=
  { h with
    busyIffInCycle := h.busy_of_inCycle hst rfl
    nothingReceived := fun _ => h.nothingReceived (.inl hst)
    writeRuns := fun _ => s.cfg.writeTimeoutTicks_pos
    windowRuns := nofun
    ackPending := nofun
    payloadPending := nofun
    payloadBudget := nofun }

/-- The acknowledgment wait begins with no window ended and nothing received (R135). -/
theorem State.SequencerLegal.awaitAck {s : State} (h : s.SequencerLegal) (hst : s.st = .sending)
    (hc : s.lcmd ≠ 0x21) :
    ({ s with wtimer := 0, retry := 0, st := .awaitingAck } : State).SequencerLegal := by
  have hrlen : s.rlen = 0 := h.nothingReceived (.inr hst)
  exact { h with
    busyIffInCycle := h.busy_of_inCycle hst rfl
    nothingReceived := nofun
    writeRuns := nofun
    windowRuns := fun _ => s.cfg.rxWindowTicks_pos
    ackPending := fun _ => ⟨by simp [hrlen], Nat.succ_pos 4, hc⟩
    payloadPending := nofun
    payloadBudget := nofun }

/-- A chunk stored leaves what the sequencer invariant reads, but RLEN and WTIMER (R139). -/
theorem State.sequencing_store (s : State) (bs : List Byte) : (s.store bs).sequencing =
    ({ s with rlen := (s.store bs).rlen, wtimer := 0 } : State).sequencing := by
  rw [State.store_frame]
  rfl

/-- A chunk that leaves the acknowledgment short of twelve bytes restarts the window (R138). -/
theorem State.SequencerLegal.storeAck {s : State} (h : s.SequencerLegal) (hst : s.st = .awaitingAck)
    {bs : List Byte} (hr : (s.store bs).rlen.toNat < 12) : (s.store bs).SequencerLegal := by
  obtain ⟨-, hretry, hcmd⟩ := h.ackPending hst
  have hset : ({ s with rlen := (s.store bs).rlen, wtimer := 0 } : State).SequencerLegal :=
    { h with
      nothingReceived := by rw [hst]; nofun
      writeRuns := by rw [hst]; nofun
      windowRuns := fun _ => s.cfg.rxWindowTicks_pos
      ackPending := fun _ => ⟨hr, hretry, hcmd⟩
      payloadPending := by rw [hst]; nofun }
  exact hset.of_sequencing_eq (s.sequencing_store bs)

/-- RLEN does not shrink when a chunk is stored (R139). -/
theorem State.le_toNat_rlen_store (s : State) (bs : List Byte) :
    s.rlen.toNat ≤ (s.store bs).rlen.toNat := by
  obtain ⟨hrlen, -⟩ := chunkStoredInOrder s bs
  rw [hrlen]
  have := s.rlen.isLt
  omega

/-- The payload is incomplete exactly when fewer than DECLEN bytes have arrived (R120). -/
theorem State.payloadComplete_eq_false {s : State} :
    s.payloadComplete = false ↔ s.rlen.toNat - 12 < s.declen.toNat := by
  rw [State.payloadComplete, decide_eq_false_iff_not, Nat.not_le]

/-- A chunk that leaves the payload incomplete restarts the window (R143). -/
theorem State.SequencerLegal.storePayload {s : State} (h : s.SequencerLegal) (hst : s.st = .awaitingPayload)
    {bs : List Byte} (hr : (s.store bs).payloadComplete = false) : (s.store bs).SequencerLegal := by
  obtain ⟨herr, hack, -, hcmd⟩ := h.payloadPending hst
  have hmore : (s.store bs).rlen.toNat - 12 < s.declen.toNat := by
    have hdec : (s.store bs).declen = s.declen := by rw [State.store_frame]
    rw [← hdec]
    exact State.payloadComplete_eq_false.1 hr
  have hset : ({ s with rlen := (s.store bs).rlen, wtimer := 0 } : State).SequencerLegal :=
    { h with
      nothingReceived := by rw [hst]; nofun
      writeRuns := by rw [hst]; nofun
      windowRuns := fun _ => s.cfg.rxWindowTicks_pos
      ackPending := by rw [hst]; nofun
      payloadPending := fun _ => ⟨herr, hack.trans (s.le_toNat_rlen_store bs), hmore, hcmd⟩ }
  exact hset.of_sequencing_eq (s.sequencing_store bs)

/-- More than what arrived is declared by GET_IMAGE and LIST only (R116). -/
theorem cmd_of_lt_declaredLength {c err : Byte} {p1 rlen expect : Nat}
    (h : rlen - 12 < declaredLength c err p1 rlen expect) : c = 0x43 ∨ c = 0x7D := by
  unfold declaredLength at h
  split_ifs at h
  · omega
  · exact .inr (by assumption)
  · omega
  · exact .inl (by assumption)
  · omega

/-- The payload wait begins where the acknowledgment reports no error and declares more than has arrived
(R195, R116). -/
theorem State.SequencerLegal.awaitPayload {s d : State} (h : s.SequencerLegal) (hst : s.st = .awaitingAck)
    {bs : List Byte} (hd : d = (s.store bs).ackDecode (s.store bs).lcmd)
    (hr : 12 ≤ (s.store bs).rlen.toNat) (he : d.errcode = 0) (hp : d.payloadComplete = false) :
    ({ d with pretry := 0, wtimer := 0, st := .awaitingPayload } : State).SequencerLegal := by
  have hcycle : d.busy = true ∧ d.lcmd = s.lcmd ∧ d.txlen = s.txlen ∧ d.expectLen = s.expectLen ∧
      d.cfg = s.cfg ∧ d.rlen = (s.store bs).rlen := by
    rw [hd, State.store_frame]
    exact ⟨h.busy_of_inCycle hst rfl, rfl, rfl, rfl, rfl, rfl⟩
  obtain ⟨hbusy, hlcmd, htxlen, hexp, hcfg, hrlen⟩ := hcycle
  have hmore : d.rlen.toNat - 12 < d.declen.toNat := State.payloadComplete_eq_false.1 hp
  have hcmd : d.lcmd = 0x43 ∨ d.lcmd = 0x7D := by
    rw [hd, State.toNat_declen_ackDecode] at hmore
    rw [hd]
    exact cmd_of_lt_declaredLength hmore
  exact {
    busyIffInCycle := hbusy
    commandLegal := fun _ => hlcmd ▸ h.commandLegal (h.busy_of_inCycle hst rfl)
    recordFits := fun _ => hlcmd ▸ htxlen ▸ h.recordFits (h.busy_of_inCycle hst rfl)
    imageFits := fun _ => hlcmd ▸ hexp ▸ hcfg ▸ h.imageFits (h.busy_of_inCycle hst rfl)
    nothingReceived := nofun
    writeRuns := nofun
    windowRuns := fun _ => d.cfg.rxWindowTicks_pos
    ackPending := nofun
    payloadPending := fun _ => ⟨he, hrlen ▸ hr, hmore, hcmd⟩
    payloadBudget := fun _ hlimit =>
      Nat.pos_of_ne_zero fun e => hlimit (BitVec.eq_of_toNat_eq e) }

/-! ### Ticks of a wait -/

theorem State.SequencerLegal.tickSending {s : State} (h : s.SequencerLegal) (hst : s.st = .sending)
    (hw : (s.wtimer + 1).toNat ≠ s.cfg.writeTimeoutTicks) :
    ({ s with wtimer := s.wtimer + 1 } : State).SequencerLegal :=
  { h with
    writeRuns := fun _ => toNat_add_one_lt (h.writeRuns hst) hw
    windowRuns := by rw [hst]; nofun }

theorem State.SequencerLegal.tickWindow {s : State} (h : s.SequencerLegal)
    (hst : s.st = .awaitingAck ∨ s.st = .awaitingPayload)
    (hw : (s.wtimer + 1).toNat ≠ s.cfg.rxWindowTicks) :
    ({ s with wtimer := s.wtimer + 1 } : State).SequencerLegal :=
  { h with
    writeRuns := by rcases hst with hst | hst <;> rw [hst] <;> nofun
    windowRuns := fun _ => toNat_add_one_lt (h.windowRuns hst) hw }

/-- A window that ends with budget left is counted (R140, R142). -/
theorem State.SequencerLegal.windowAck {s : State} (h : s.SequencerLegal) (hst : s.st = .awaitingAck)
    (hr : (s.retry + 1).toNat ≠ Config.ackRetryBudget) :
    ({ s with wtimer := 0, retry := s.retry + 1 } : State).SequencerLegal := by
  obtain ⟨hrlen, hretry, hcmd⟩ := h.ackPending hst
  exact { h with
    writeRuns := by rw [hst]; nofun
    windowRuns := fun _ => s.cfg.rxWindowTicks_pos
    ackPending := fun _ => ⟨hrlen, toNat_add_one_lt hretry hr, hcmd⟩ }

theorem State.SequencerLegal.windowUnbounded {s : State} (h : s.SequencerLegal)
    (hst : s.st = .awaitingPayload) : ({ s with wtimer := 0 } : State).SequencerLegal :=
  { h with
    writeRuns := by rw [hst]; nofun
    windowRuns := fun _ => s.cfg.rxWindowTicks_pos }

/-- A window that ends below the host's limit is counted (R144, R145). -/
theorem State.SequencerLegal.windowPayload {s : State} (h : s.SequencerLegal)
    (hst : s.st = .awaitingPayload) (hl : s.payloadRetryLimit ≠ 0)
    (hp : s.pretry + 1 ≠ s.payloadRetryLimit) :
    ({ s with wtimer := 0, pretry := s.pretry + 1 } : State).SequencerLegal := by
  have hne : (s.pretry + 1).toNat ≠ s.payloadRetryLimit.toNat := fun e => hp (BitVec.eq_of_toNat_eq e)
  exact { h with
    writeRuns := by rw [hst]; nofun
    windowRuns := fun _ => s.cfg.rxWindowTicks_pos
    payloadBudget := fun _ _ =>
      toNat_add_one_lt (h.payloadBudget hst hl) hne }

/-! ### Every step -/

/-- A write open while BUSY = 1 changes nothing the sequencer reads (R25). -/
theorem State.sequencing_regStore_open (s : State) {r : HostReg} (hr : r.openWhileBusy = true)
    (v : BusWord) : (s.regStore r v).sequencing = s.sequencing := by
  cases r with
  | status | evt | evtEn => rfl
  | _ => cases hr

theorem st_regStore (s : State) (r : HostReg) (v : BusWord) : (s.regStore r v).st = s.st := by
  cases r <;> rfl

theorem Loaded.busy_eq {s v : State} (h : Loaded s v) : v.busy = s.busy := by
  cases h <;> rfl

theorem Loaded.st_eq {s v : State} (h : Loaded s v) : v.st = s.st := by
  cases h <;> rfl

/-- Every reaction keeps the sequencer legal. -/
theorem Reaction.keeps_sequencerLegal {s t : State} {e : EnvEvent} (hr : Reaction s e t)
    (h : s.SequencerLegal) : t.SequencerLegal := by
  cases hr with
  | ignored => exact h
  | refused _ _ hb v hv => exact h.of_idle hb hv.busy_eq hv.st_eq
  | accepted _ _ _ v _ hr => exact sequencerLegal_runAccept hr
  | build _ _ hb | id2b _ _ hb | decack _ _ hb | decdir _ _ hb | nextfree _ _ hb | flipimg _ _ hb =>
    exact h.of_idle hb rfl rfl
  | enctpl _ _ hb rec c => rw [State.writeRecord_eq]; exact h.of_idle hb rfl rfl
  | regWrite r n v _ hb =>
    rcases hb with hopen | hb
    · exact h.of_sequencing_eq (s.sequencing_regStore_open hopen v)
    · exact h.of_idle hb (busy_regStore s r v) (st_regStore s r v)
  | bufWrite b i v _ _ hb => exact h.of_idle hb (by simp) (by simp)
  | openOk hs => exact h.onTpOpenOk hs
  | openFail | writeTimeout | ackTimeout | payloadTimeout => exact sequencerLegal_raiseFault _ _
  | writtenBaud | ackEnd | payloadEnd => exact sequencerLegal_normalEnd _
  | ackError => exact sequencerLegal_deviceErrorEnd _
  | written hs hc => exact h.awaitAck hs hc
  | chunkAck b bs hs hr => exact h.storeAck hs hr
  | chunkPayload b bs hs hr => exact h.storePayload hs hr
  | ackPayload b bs hs d hd hr he hp => exact h.awaitPayload hs hd hr he hp
  | tickSending hs hw => exact h.tickSending hs hw
  | tickWindow hs hw => exact h.tickWindow hs hw
  | windowAck hs hr => exact h.windowAck hs hr
  | windowUnbounded hs => exact h.windowUnbounded hs
  | windowPayload hs hl hp => exact h.windowPayload hs hl hp
  | flagged | read | presence => exact h.of_sequencing_eq rfl
  | reset => exact sequencerLegal_of_noCycle rfl rfl

/-- Settles O57: a step takes an event off the queue, and every reaction to it keeps the sequencer
legal. -/
theorem stepKeepsSequencerLegal : Obligations.StepKeepsSequencerLegal := by
  intro s t h hstep
  rcases step_cases hstep with ⟨_, rfl⟩ | ⟨e, es, _, hr⟩
  · exact h
  · exact hr.keeps_sequencerLegal (h.of_sequencing_eq rfl)

end Sys2Proof.Machine
end

section
/-! PROOFS. The transport's port over a step, and how a cycle ends (`42_transport_session.md` R130, R146,
`44_device_facade.md` R196 to R198, `60_exceptions.md` R237, R242, `70_reset_and_hazards.md` R279). -/

namespace Sys2Proof.Machine

/-! ### The pulses of a step -/

/-- From `s` to `t` the port log grows by pulses that keep the discipline and take the transport from open
exactly when BUSY is 1 in `s` to open exactly when it is 1 in `t`. -/
def State.MovesPort (s t : State) : Prop :=
  ∃ ps, t.portlog = s.portlog ++ ps ∧ ps.foldl sessionAfter (some s.busy) = some t.busy

theorem State.PortsBracketed.of_movesPort {s t : State} (h : s.PortsBracketed) (hm : s.MovesPort t) :
    t.PortsBracketed := by
  obtain ⟨ps, hlog, hmove⟩ := hm
  rw [State.PortsBracketed, hlog, List.foldl_append, h, hmove]

theorem State.MovesPort.trans {s t u : State} (h : s.MovesPort t) (h' : t.MovesPort u) :
    s.MovesPort u := by
  obtain ⟨ps, hlog, hmove⟩ := h
  obtain ⟨qs, hlog', hmove'⟩ := h'
  exact ⟨ps ++ qs, by rw [hlog', hlog, List.append_assoc], by rw [List.foldl_append, hmove, hmove']⟩

/-- The two fields the port discipline reads. -/
def State.port (s : State) : List Pulse × Bool := (s.portlog, s.busy)

/-- What leaves the port log and BUSY gives no pulse. -/
theorem movesPort_of_port_eq {s t : State} (e : t.port = s.port) : s.MovesPort t := by
  simp only [State.port, Prod.mk.injEq] at e
  obtain ⟨hlog, hbusy⟩ := e
  exact ⟨[], by rw [hlog, List.append_nil], congrArg some hbusy.symm⟩

theorem State.MovesPort.after {s t u : State} (h : t.MovesPort u) (e : t.port = s.port) : s.MovesPort u :=
  (movesPort_of_port_eq e).trans h

/-- A host read does not concern the transport. -/
theorem movesPort_readData (s : State) (v : BusWord) : s.MovesPort (s.pulse (.readData v)) :=
  ⟨[.readData v], rfl, by cases h : s.busy <;> rw [State.pulse_busy, h] <;> rfl⟩

/-- The pulse of an event does not concern the transport (R241). -/
theorem movesPort_emit (s : State) (k : EvKind) (code : Option Byte) : s.MovesPort (s.emit k code) := by
  refine ⟨k.pulses code, rfl, ?_⟩
  rw [State.emit_busy]
  cases s.busy <;> cases k <;> rfl

theorem movesPort_complete (s : State) : s.MovesPort s.complete :=
  (movesPort_emit (s.setResult .ok 0) _ _).after rfl

theorem movesPort_refuse (s : State) (c : Byte) : s.MovesPort (s.refuse c) :=
  (movesPort_emit (s.setResult .illegalRequest c) _ _).after rfl

/-- Bytes go out while the transport is open. -/
theorem foldl_sessionAfter_txData (bs : List Byte) :
    (bs.map Pulse.txData).foldl sessionAfter (some true) = some true := by
  induction bs with
  | nil => rfl
  | cons b bs ih => exact ih

theorem movesPort_onTpOpenOk {s : State} (hb : s.busy = true) : s.MovesPort s.onTpOpenOk :=
  ⟨s.sendBytes.map Pulse.txData, rfl, by
    rw [hb, foldl_sessionAfter_txData]
    exact congrArg some hb.symm⟩

/-- RUN opens the transport, which is closed while no cycle is in flight (R130). -/
theorem movesPort_runAccept {s : State} (hb : s.busy = false) : s.MovesPort s.runAccept := by
  rw [State.runAccept_eq]
  exact ⟨_, rfl, by rw [hb]; rfl⟩

/-- Every end of a cycle closes the transport (R146, R198). -/
theorem movesPort_endCycle {s : State} (hb : s.busy = true) (q : SeqState) (r : ResultClass) (c : Byte) :
    s.MovesPort (s.endCycle q r c) := by
  rw [State.endCycle_eq]
  exact ⟨_, rfl, by rw [hb]; rfl⟩

theorem movesPort_normalEnd {s : State} (hb : s.busy = true) : s.MovesPort s.normalEnd :=
  movesPort_endCycle hb _ _ _

theorem movesPort_deviceErrorEnd {s : State} (hb : s.busy = true) : s.MovesPort s.deviceErrorEnd :=
  (movesPort_emit s _ _).trans (movesPort_endCycle (s := s.emit .deverr (some s.errcode)) hb _ _ _)

theorem movesPort_markFault (s : State) (c : ResultClass) : s.MovesPort (s.markFault c) := by
  simp only [State.markFault]
  split
  · exact (movesPort_emit _ _ _).after rfl
  · exact movesPort_of_port_eq rfl

theorem busy_markFault (s : State) (c : ResultClass) : (s.markFault c).busy = s.busy := by
  simp only [State.markFault]
  split <;> rfl

theorem movesPort_raiseFault {s : State} (hb : s.busy = true) (c : ResultClass) :
    s.MovesPort (s.raiseFault c) :=
  (movesPort_markFault s c).trans (movesPort_endCycle ((busy_markFault s c).trans hb) _ _ _)

/-- Reset closes the transport where it finds a cycle in flight (R146, R260). -/
theorem movesPort_onReset {s : State} (h : s.busy = s.st.inCycle) : s.MovesPort s.onReset := by
  refine ⟨if s.st.inCycle then [.tpClose] else [], rfl, ?_⟩
  rw [h]
  cases s.st.inCycle <;> rfl

/-! ### Every step -/

theorem State.port_store (s : State) (bs : List Byte) : (s.store bs).port = s.port := by
  rw [State.store_frame]; rfl

theorem State.port_acknowledged {s d : State} {bs : List Byte} {c : Byte}
    (hd : d = (s.store bs).ackDecode c) : d.port = s.port := by
  subst hd
  exact s.port_store bs

theorem State.port_regStore (s : State) (r : HostReg) (v : BusWord) : (s.regStore r v).port = s.port := by
  cases r <;> rfl

theorem Loaded.port_eq {s v : State} (h : Loaded s v) : v.port = s.port := by
  cases h <;> rfl

theorem State.busy_of_port_eq {s t : State} (e : t.port = s.port) : t.busy = s.busy :=
  congrArg Prod.snd e

/-- Every reaction keeps the port discipline: RUN opens while idle, and in a cycle, where BUSY is 1, bytes
go out and its end closes. -/
theorem Reaction.movesPort {s t : State} {e : EnvEvent} (hr : Reaction s e t) (h : s.SequencerLegal) :
    s.MovesPort t := by
  cases hr with
  | ignored => exact movesPort_of_port_eq rfl
  | refused _ _ _ v hv => exact (movesPort_refuse v _).after hv.port_eq
  | accepted _ _ hb v hv => exact (movesPort_runAccept (hv.busy_eq.trans hb)).after hv.port_eq
  | build | id2b | decack | enctpl | decdir | nextfree | flipimg => exact (movesPort_complete _).after rfl
  | regWrite r n v => exact movesPort_of_port_eq (s.port_regStore r v)
  | bufWrite => exact movesPort_of_port_eq (by simp [State.port])
  | read _ _ v => exact movesPort_readData s v
  | openOk hs => exact movesPort_onTpOpenOk (h.busy_of_inCycle hs rfl)
  | openFail hs => exact movesPort_raiseFault (h.busy_of_inCycle hs rfl) _
  | writeTimeout hs | ackTimeout hs | payloadTimeout hs =>
    refine State.MovesPort.after (movesPort_raiseFault ?busy _) ?same
    case busy => exact h.busy_of_inCycle hs rfl
    case same => rfl
  | writtenBaud hs => exact movesPort_normalEnd (h.busy_of_inCycle hs rfl)
  | chunkAck | chunkPayload => exact movesPort_of_port_eq (s.port_store _)
  | ackError _ _ hs d hd =>
    have hport := State.port_acknowledged hd
    have hbusy : d.busy = true := (State.busy_of_port_eq hport).trans (h.busy_of_inCycle hs rfl)
    exact (movesPort_deviceErrorEnd hbusy).after hport
  | ackEnd _ _ hs d hd =>
    have hport := State.port_acknowledged hd
    have hbusy : d.busy = true := (State.busy_of_port_eq hport).trans (h.busy_of_inCycle hs rfl)
    exact (movesPort_normalEnd hbusy).after hport
  | payloadEnd b bs hs =>
    have hport := s.port_store (b :: bs)
    have hbusy := (State.busy_of_port_eq hport).trans (h.busy_of_inCycle hs rfl)
    exact (movesPort_normalEnd hbusy).after hport
  | ackPayload _ _ _ d hd =>
    exact State.MovesPort.trans (movesPort_of_port_eq (State.port_acknowledged hd)) (movesPort_of_port_eq rfl)
  | presence => exact movesPort_emit s _ _
  | reset => exact movesPort_onReset h.busyIffInCycle
  | flagged | written | tickSending | tickWindow | windowAck | windowUnbounded | windowPayload =>
    exact movesPort_of_port_eq rfl

/-- Settles O60: a step takes an event off the queue, and every reaction to it keeps the discipline. -/
theorem stepKeepsPortsBracketed : Obligations.StepKeepsPortsBracketed := by
  intro s t hseq h hstep
  rcases step_cases hstep with ⟨_, rfl⟩ | ⟨e, es, _, hr⟩
  · exact h
  · exact State.PortsBracketed.of_movesPort (s := { s with inbox := es }) h
      (hr.movesPort (hseq.of_sequencing_eq rfl))

/-! ### The ends of a cycle -/

/-- How a cycle can end but by Reset, from the state whose logs the end extends (R196, R197, R237). -/
inductive CycleEnd (s : State) : State → Prop
  | normal (u : State) (hu : u.logs = s.logs) : CycleEnd s u.normalEnd
  | deviceError (u : State) (hu : u.logs = s.logs) (he : u.errcode ≠ 0) : CycleEnd s u.deviceErrorEnd
  | transportFailure (u : State) (hu : u.logs = s.logs) (c : ResultClass)
      (hc : c = .transportOpenFailed ∨ c = .transportWriteTimeout) : CycleEnd s (u.raiseFault c)
  | timeout (u : State) (hu : u.logs = s.logs) (c : ResultClass)
      (hc : c = .protocolTimeout ∨ c = .payloadTimeout) : CycleEnd s (u.raiseFault c)

theorem State.logs_store (s : State) (bs : List Byte) : (s.store bs).logs = s.logs := by
  rw [State.store_frame]; rfl

theorem State.logs_acknowledged {s d : State} {bs : List Byte} {c : Byte}
    (hd : d = (s.store bs).ackDecode c) : d.logs = s.logs := by
  subst hd
  exact s.logs_store bs

/-- A reaction but Reset leaves BUSY at 1 or is one of the ends of a cycle. -/
theorem Reaction.busy_or_cycleEnd {s t : State} {e : EnvEvent} (hr : Reaction s e t) (he : e ≠ .reset)
    (hb : s.busy = true) : t.busy = true ∨ CycleEnd s t := by
  cases hr with
  | refused _ _ hidle | accepted _ _ hidle | build _ _ hidle | id2b _ _ hidle | decack _ _ hidle
  | enctpl _ _ hidle | decdir _ _ hidle | nextfree _ _ hidle | flipimg _ _ hidle
  | bufWrite _ _ _ _ _ hidle =>
    rw [hb] at hidle
    cases hidle
  | regWrite r n v => exact .inl ((busy_regStore s r v).trans hb)
  | chunkAck | chunkPayload => exact .inl ((State.busy_of_port_eq (s.port_store _)).trans hb)
  | ackPayload _ _ _ d hd => exact .inl ((State.busy_of_port_eq (State.port_acknowledged hd)).trans hb)
  | openFail => exact .inr (.transportFailure s rfl _ (.inl rfl))
  | writeTimeout => exact .inr (.transportFailure (s := s) { s with wtimer := s.wtimer + 1 } rfl _ (.inr rfl))
  | ackTimeout => exact .inr (.timeout (s := s) { s with wtimer := 0, retry := s.retry + 1 } rfl _ (.inl rfl))
  | payloadTimeout =>
    exact .inr (.timeout (s := s) { s with wtimer := 0, pretry := s.pretry + 1 } rfl _ (.inr rfl))
  | writtenBaud => exact .inr (.normal s rfl)
  | ackError _ _ _ d hd _ herr => exact .inr (.deviceError d (State.logs_acknowledged hd) herr)
  | ackEnd _ _ _ d hd => exact .inr (.normal d (State.logs_acknowledged hd))
  | payloadEnd => exact .inr (.normal _ (s.logs_store _))
  | reset => exact absurd rfl he
  | ignored | flagged | read | openOk | written | tickSending | tickWindow | windowAck | windowUnbounded
  | windowPayload | presence => exact .inl hb

/-- The step that takes an event from the queue is a reaction to it. -/
theorem reaction_of_step {s t : State} {e : EnvEvent} {es : List EnvEvent} (hs : s.inbox = e :: es)
    (hstep : step s = .next t) : Reaction { s with inbox := es } e t := by
  rcases step_cases hstep with ⟨hnil, _⟩ | ⟨e', es', hs', hr⟩
  · rw [hs] at hnil
    cases hnil
  · rw [hs] at hs'
    obtain ⟨rfl, rfl⟩ := List.cons_eq_cons.1 hs'
    exact hr

theorem evlog_of_logs_eq {s u : State} (h : u.logs = s.logs) : u.evlog = s.evlog :=
  congrArg (fun l => l.2.2.1) h

theorem portlog_of_logs_eq {s u : State} (h : u.logs = s.logs) : u.portlog = s.portlog :=
  congrArg (fun l => l.2.2.2) h

/-- Settles O40: the four ends of a cycle one by one. -/
theorem cycleEndReportedTwice : Obligations.CycleEndReportedTwice := by
  intro s t e es hs he hstep hbusy hidle
  have hend : CycleEnd { s with inbox := es } t := by
    rcases (reaction_of_step hs hstep).busy_or_cycleEnd he hbusy with hb | hend
    · rw [hb] at hidle
      cases hidle
    · exact hend
  cases hend with
  | normal u hu =>
    rw [State.normalEnd_eq, evlog_of_logs_eq hu, portlog_of_logs_eq hu]
    exact ⟨[], by simp, ⟨[], by simp, by simp⟩, .inl rfl, .inr (.inr (.inr ⟨rfl, rfl, rfl, rfl⟩))⟩
  | deviceError u hu herr =>
    rw [State.deviceErrorEnd_eq, evlog_of_logs_eq hu, portlog_of_logs_eq hu]
    exact ⟨[(.deverr, some u.errcode)], by simp, ⟨[.evtDeverr u.errcode], by simp, by simp⟩, .inl rfl,
      .inl ⟨rfl, rfl, rfl, herr, rfl⟩⟩
  | transportFailure u hu c hc =>
    have hmarks : c.degrades = true ∧ c.timesOut = false := by
      rcases hc with rfl | rfl <;> exact ⟨rfl, rfl⟩
    rw [State.raiseFault_transport u c hmarks.1 hmarks.2, evlog_of_logs_eq hu, portlog_of_logs_eq hu]
    exact ⟨[], by simp, ⟨[], by simp, by simp⟩, .inr rfl, .inr (.inr (.inl ⟨hc, rfl, rfl, rfl, rfl⟩))⟩
  | timeout u hu c hc =>
    have hmarks : c.degrades = false ∧ c.timesOut = true := by
      rcases hc with rfl | rfl <;> exact ⟨rfl, rfl⟩
    rw [State.raiseFault_timeout u c hmarks.1 hmarks.2, evlog_of_logs_eq hu, portlog_of_logs_eq hu]
    exact ⟨[(.timeout, some 0)], by simp, ⟨[.evtTimeout], by simp, by simp⟩, .inr rfl,
      .inr (.inl ⟨hc, rfl, rfl, rfl⟩)⟩

end Sys2Proof.Machine
end

section
/-! PROOFS. The waits while the transport is silent (`42_transport_session.md` R134, R140 to R145): a run of
ticks counts windows, and the tick that ends the last window of the budget ends the cycle. -/

namespace Sys2Proof

/-- A window fits the 32 bits of WTIMER (R21). -/
theorem Params.rxWindowTicks_lt (p : Params) : p.rxWindowTicks < 2 ^ 32 := by
  have := p.rxWindowPred.isLt
  unfold Params.rxWindowTicks
  omega

theorem Params.writeTimeoutTicks_lt (p : Params) : p.writeTimeoutTicks < 2 ^ 32 := by
  have := p.writeTimeoutPred.isLt
  unfold Params.writeTimeoutTicks
  omega

end Sys2Proof

namespace Sys2Proof.Machine

/-! ### A run of ticks -/

/-- The pending events play no part in a fault. -/
theorem raiseFault_withInbox (s : State) (c : ResultClass) (q : List EnvEvent) :
    (s.withInbox q).raiseFault c = (s.raiseFault c).withInbox q := by
  cases c <;> rfl

theorem onTickSending_withInbox (s : State) (q : List EnvEvent) :
    (s.withInbox q).onTickSending = s.onTickSending.withInbox q := by
  simp only [State.onTickSending, apply_ite (State.withInbox q), ← raiseFault_withInbox]
  rfl

theorem onTickAck_withInbox (s : State) (q : List EnvEvent) :
    (s.withInbox q).onTickAck = s.onTickAck.withInbox q := by
  simp only [State.onTickAck, apply_ite (State.withInbox q), ← raiseFault_withInbox]
  rfl

theorem onTickPayload_withInbox (s : State) (q : List EnvEvent) :
    (s.withInbox q).onTickPayload = s.onTickPayload.withInbox q := by
  simp only [State.onTickPayload, apply_ite (State.withInbox q), ← raiseFault_withInbox]
  rfl

/-- The pending events play no part in a tick. -/
theorem onTick_withInbox (s : State) (q : List EnvEvent) :
    (s.withInbox q).onTick = s.onTick.withInbox q := by
  have hst : (s.withInbox q).st = s.st := rfl
  simp only [State.onTick, hst]
  cases s.st with
  | idle | failed | configuring => rfl
  | sending => exact onTickSending_withInbox s q
  | awaitingAck => exact onTickAck_withInbox s q
  | awaitingPayload => exact onTickPayload_withInbox s q

theorem step_tick {s : State} {es : List EnvEvent} (hs : s.inbox = .tick :: es) :
    step s = .next (s.withInbox es).onTick :=
  step_of_word_none hs rfl

/-- A run over pending ticks performs them one after the other. -/
theorem runFor_withInbox_ticks (n : Nat) (s : State) (es : List EnvEvent) :
    runFor n (s.withInbox (List.replicate n .tick ++ es)) = .next ((State.onTick^[n] s).withInbox es) := by
  induction n generalizing s with
  | zero => rfl
  | succ n ih =>
    have hstep : step (s.withInbox (List.replicate (n + 1) .tick ++ es)) =
        .next (s.onTick.withInbox (List.replicate n .tick ++ es)) := by
      rw [← onTick_withInbox]
      exact step_tick (s := s.withInbox (.tick :: (List.replicate n .tick ++ es))) rfl
    rw [runFor_succ n hstep, ih, Function.iterate_succ_apply]

theorem runFor_ticks {n : Nat} {s : State} {es : List EnvEvent}
    (hs : s.inbox = List.replicate n .tick ++ es) :
    runFor n s = .next ((State.onTick^[n] s).withInbox es) := by
  rw [← runFor_withInbox_ticks, ← hs]
  rfl

/-! ### Counting windows -/

/-- One more tick either ends a window or does not. -/
theorem window_succ {W : Nat} (hW : 0 < W) (n : Nat) :
    (n % W + 1 < W ∧ (n + 1) % W = n % W + 1 ∧ (n + 1) / W = n / W) ∨
      (n % W + 1 = W ∧ (n + 1) % W = 0 ∧ (n + 1) / W = n / W + 1) := by
  have hn := Nat.mod_add_div n W
  rcases Nat.lt_or_eq_of_le (Nat.mod_lt n hW) with hlt | heq
  · obtain ⟨hdiv, hmod⟩ := (Nat.div_mod_unique (a := n + 1) (c := n % W + 1) (d := n / W) hW).2
      ⟨by omega, hlt⟩
    exact .inl ⟨hlt, hmod, hdiv⟩
  · obtain ⟨hdiv, hmod⟩ := (Nat.div_mod_unique (a := n + 1) (c := 0) (d := n / W + 1) hW).2
      ⟨by rw [Nat.mul_add]; omega, hW⟩
    exact .inr ⟨heq, hmod, hdiv⟩

section Windows

variable {tick : State → State} {f : Nat → Nat → State} {W L : Nat}

/-- A wait whose state is `f w r` after `r` windows of `W` ticks and `w` ticks of the next: below `L`
windows, `n` ticks lead to `f (n % W) (n / W)`. -/
theorem iterate_windows (hW : 0 < W) (hin : ∀ w r, w + 1 < W → tick (f w r) = f (w + 1) r)
    (hend : ∀ w r, w + 1 = W → r + 1 < L → tick (f w r) = f 0 (r + 1)) (n : Nat) (hn : n < L * W) :
    tick^[n] (f 0 0) = f (n % W) (n / W) := by
  induction n with
  | zero => simp
  | succ n ih =>
    rw [Function.iterate_succ_apply', ih (by omega)]
    have hlast : (n + 1) / W < L := (Nat.div_lt_iff_lt_mul hW).2 hn
    rcases window_succ hW n with ⟨hw, hmod, hdiv⟩ | ⟨hw, hmod, hdiv⟩
    · rw [hin _ _ hw, hmod, hdiv]
    · rw [hend _ _ hw (hdiv ▸ hlast), hmod, hdiv]

/-- The last tick of the last window finds the wait after `W - 1` ticks of it. -/
theorem iterate_all_windows (hW : 0 < W) (hL : 0 < L)
    (hin : ∀ w r, w + 1 < W → tick (f w r) = f (w + 1) r)
    (hend : ∀ w r, w + 1 = W → r + 1 < L → tick (f w r) = f 0 (r + 1)) :
    tick^[L * W] (f 0 0) = tick (f (W - 1) (L - 1)) := by
  obtain ⟨l, rfl⟩ : ∃ l, L = l + 1 := ⟨L - 1, by omega⟩
  obtain ⟨v, rfl⟩ : ∃ v, W = v + 1 := ⟨W - 1, by omega⟩
  have hticks : (l + 1) * (v + 1) = (v + (v + 1) * l) + 1 := by ring
  have hmod : (v + (v + 1) * l) % (v + 1) = v := by simp
  have hdiv : (v + (v + 1) * l) / (v + 1) = l := by
    rw [Nat.add_mul_div_left _ _ hW, Nat.div_eq_of_lt (Nat.lt_succ_self v), Nat.zero_add]
  have hn : v + (v + 1) * l < (l + 1) * (v + 1) := by omega
  rw [hticks, Function.iterate_succ_apply', iterate_windows hW hin hend _ hn, hmod, hdiv]
  rfl

end Windows
/-! ### Counters -/

/-- The next count of a counter register. -/
theorem ofNat_succ (w n : Nat) : BitVec.ofNat w n + 1 = BitVec.ofNat w (n + 1) :=
  (BitVec.ofNat_add n 1).symm

/-- A counter register holds a count that fits it. -/
theorem toNat_ofNat_succ {w n : Nat} (h : n + 1 < 2 ^ w) : (BitVec.ofNat w (n + 1)).toNat = n + 1 := by
  rw [BitVec.toNat_ofNat, Nat.mod_eq_of_lt h]

/-- The state with the wait's timer at `w` (R134, R251). -/
def State.timerAt (s : State) (w : Nat) : State := { s with wtimer := BitVec.ofNat 32 w }

/-- The acknowledgment wait after `r` windows and `w` ticks of the next (R140). -/
def State.ackWaitAt (s : State) (w r : Nat) : State :=
  { s with wtimer := BitVec.ofNat 32 w, retry := BitVec.ofNat 3 r }

/-- The payload wait after `p` windows and `w` ticks of the next (R144). -/
def State.payloadWaitAt (s : State) (w p : Nat) : State :=
  { s with wtimer := BitVec.ofNat 32 w, pretry := BitVec.ofNat 16 p }

theorem State.timerAt_zero {s : State} (hw : s.wtimer = 0) : s.timerAt 0 = s := by
  have htimer : BitVec.ofNat 32 0 = s.wtimer := hw.symm
  rw [State.timerAt, htimer]

theorem State.ackWaitAt_zero {s : State} (hw : s.wtimer = 0) (hr : s.retry = 0) : s.ackWaitAt 0 0 = s := by
  have htimer : BitVec.ofNat 32 0 = s.wtimer := hw.symm
  have hretry : BitVec.ofNat 3 0 = s.retry := hr.symm
  rw [State.ackWaitAt, htimer, hretry]

theorem State.payloadWaitAt_zero {s : State} (hw : s.wtimer = 0) (hp : s.pretry = 0) :
    s.payloadWaitAt 0 0 = s := by
  have htimer : BitVec.ofNat 32 0 = s.wtimer := hw.symm
  have hpretry : BitVec.ofNat 16 0 = s.pretry := hp.symm
  rw [State.payloadWaitAt, htimer, hpretry]

/-! ### The write timeout -/

/-- A tick in Sending counts, and at WRITE_TIMEOUT_TICKS fails (R134). -/
theorem onTick_timerAt_of_sending {s : State} (hst : s.st = .sending) {w : Nat}
    (hw : w + 1 ≤ s.cfg.writeTimeoutTicks) : (s.timerAt w).onTick =
      if w + 1 = s.cfg.writeTimeoutTicks then (s.timerAt (w + 1)).raiseFault .transportWriteTimeout
      else s.timerAt (w + 1) := by
  have hcount := toNat_ofNat_succ (w := 32) (n := w) (by have := s.cfg.writeTimeoutTicks_lt; omega)
  rw [State.onTick_of_sending (s := s.timerAt w) hst]
  simp only [State.onTickSending, State.timerAt, hcount, ofNat_succ]

/-- Settles O31: one window of WRITE_TIMEOUT_TICKS ticks, whose last one fails the write. -/
theorem writeTimesOutAtItsTick : Obligations.WriteTimesOutAtItsTick := by
  intro s n es hst hw hs
  have hin : ∀ w r : Nat, w + 1 < s.cfg.writeTimeoutTicks → (s.timerAt w).onTick = s.timerAt (w + 1) :=
    fun w _ hlt => by rw [onTick_timerAt_of_sending hst hlt.le, if_neg hlt.ne]
  have hend : ∀ w r : Nat, w + 1 = s.cfg.writeTimeoutTicks → r + 1 < 1 →
      (s.timerAt w).onTick = s.timerAt 0 := fun _ r _ hr => by omega
  have hpos := s.cfg.writeTimeoutTicks_pos
  have hzero := State.timerAt_zero hw
  rw [runFor_ticks hs]
  refine ⟨fun hn => ?before, fun hn => ?last⟩
  case before =>
    have hrun := iterate_windows (f := fun w _ => s.timerAt w) hpos hin hend n (by omega)
    simp only [hzero, Nat.mod_eq_of_lt hn] at hrun
    rw [hrun]
    rfl
  case last =>
    have hrun := iterate_all_windows (f := fun w _ => s.timerAt w) hpos Nat.one_pos hin hend
    have hticks : s.cfg.writeTimeoutTicks - 1 + 1 = s.cfg.writeTimeoutTicks := by omega
    simp only [hzero, Nat.one_mul] at hrun
    rw [hn, hrun, onTick_timerAt_of_sending hst hticks.le, if_pos hticks, hticks,
      State.raiseFault_transport _ _ rfl rfl]
    rfl

/-! ### The acknowledgment wait -/

/-- A tick inside a window of either wait counts and does nothing else (R140, R144). -/
theorem onTick_of_inWindow {s : State} (hst : s.st = .awaitingAck ∨ s.st = .awaitingPayload) {w : Nat}
    (hw : w + 1 < s.cfg.rxWindowTicks) : (s.timerAt w).onTick = s.timerAt (w + 1) := by
  have hcount := toNat_ofNat_succ (w := 32) (n := w) (by have := s.cfg.rxWindowTicks_lt; omega)
  rcases hst with hst | hst
  · rw [State.onTick_of_awaitingAck (s := s.timerAt w) hst]
    simp only [State.onTickAck, State.timerAt, hcount, ofNat_succ, if_neg hw.ne]
  · rw [State.onTick_of_awaitingPayload (s := s.timerAt w) hst]
    simp only [State.onTickPayload, State.timerAt, hcount, ofNat_succ, if_neg hw.ne]

/-- The tick that ends a window of the acknowledgment wait counts it, and fails at the fifth (R141,
R142). -/
theorem onTick_ackWaitAt_of_window {s : State} (hst : s.st = .awaitingAck) {w r : Nat}
    (hw : w + 1 = s.cfg.rxWindowTicks) (hr : r + 1 ≤ 5) : (s.ackWaitAt w r).onTick =
      if r + 1 = 5 then (s.ackWaitAt 0 (r + 1)).raiseFault .protocolTimeout
      else s.ackWaitAt 0 (r + 1) := by
  have hcount := toNat_ofNat_succ (w := 32) (n := w) (by have := s.cfg.rxWindowTicks_lt; omega)
  have hretry := toNat_ofNat_succ (w := 3) (n := r) (by omega)
  rw [State.onTick_of_awaitingAck (s := s.ackWaitAt w r) hst]
  simp only [State.onTickAck, State.ackWaitAt, hcount, hretry, ofNat_succ, if_pos hw]
  rfl

/-- Settles O37: five windows, the last tick of the last of which fails the wait. -/
theorem ackTimeoutAfterFiveWindows : Obligations.AckTimeoutAfterFiveWindows := by
  intro s n es hst hw hr hs
  have hin : ∀ w r, w + 1 < s.cfg.rxWindowTicks → (s.ackWaitAt w r).onTick = s.ackWaitAt (w + 1) r :=
    fun w r hlt => onTick_of_inWindow (s := s.ackWaitAt w r) (.inl hst) hlt
  have hend : ∀ w r, w + 1 = s.cfg.rxWindowTicks → r + 1 < 5 →
      (s.ackWaitAt w r).onTick = s.ackWaitAt 0 (r + 1) :=
    fun w r hlast hlt => by rw [onTick_ackWaitAt_of_window hst hlast hlt.le, if_neg hlt.ne]
  have hpos := s.cfg.rxWindowTicks_pos
  have hzero := State.ackWaitAt_zero hw hr
  rw [runFor_ticks hs]
  refine ⟨fun hn => ?before, fun hn => ?last⟩
  case before =>
    have hrun := iterate_windows hpos hin hend n hn
    rw [hzero] at hrun
    rw [hrun]
    rfl
  case last =>
    have hrun := iterate_all_windows hpos (Nat.succ_pos 4) hin hend
    have hticks : s.cfg.rxWindowTicks - 1 + 1 = s.cfg.rxWindowTicks := by omega
    rw [hzero] at hrun
    rw [hn, hrun, onTick_ackWaitAt_of_window hst hticks (Nat.le_refl 5), if_pos rfl,
      State.raiseFault_timeout _ _ rfl rfl]
    rfl

/-! ### The payload wait -/

/-- Without a limit the tick that ends a window of the payload wait rewinds the timer only (R145). -/
theorem onTick_timerAt_of_unbounded {s : State} (hst : s.st = .awaitingPayload)
    (hl : s.payloadRetryLimit = 0) {w : Nat} (hw : w + 1 = s.cfg.rxWindowTicks) :
    (s.timerAt w).onTick = s.timerAt 0 := by
  have hcount := toNat_ofNat_succ (w := 32) (n := w) (by have := s.cfg.rxWindowTicks_lt; omega)
  rw [State.onTick_of_awaitingPayload (s := s.timerAt w) hst]
  simp only [State.onTickPayload, State.timerAt, hcount, ofNat_succ, if_pos hw, hl, ↓reduceIte]
  rfl

/-- Settles O38: windows without a limit to their number. -/
theorem payloadWaitHasNoDeadline : Obligations.PayloadWaitHasNoDeadline := by
  intro s n es hst hw hl hs
  have hin : ∀ w r : Nat, w + 1 < s.cfg.rxWindowTicks → (s.timerAt w).onTick = s.timerAt (w + 1) :=
    fun w _ hlt => onTick_of_inWindow (.inr hst) hlt
  have hend : ∀ w r : Nat, w + 1 = s.cfg.rxWindowTicks → r + 1 < n + 1 →
      (s.timerAt w).onTick = s.timerAt 0 := fun w _ hlast _ => onTick_timerAt_of_unbounded hst hl hlast
  have hpos := s.cfg.rxWindowTicks_pos
  have hn : n < (n + 1) * s.cfg.rxWindowTicks :=
    (Nat.lt_succ_self n).trans_le (Nat.le_mul_of_pos_right _ hpos)
  have hrun := iterate_windows (f := fun w _ => s.timerAt w) hpos hin hend n hn
  simp only [State.timerAt_zero hw] at hrun
  rw [runFor_ticks hs, hrun]
  rfl

/-- With a limit the tick that ends a window of the payload wait counts it, and fails at the limit (R144,
R145). -/
theorem onTick_payloadWaitAt_of_window {s : State} (hst : s.st = .awaitingPayload)
    (hl : s.payloadRetryLimit ≠ 0) {w p : Nat} (hw : w + 1 = s.cfg.rxWindowTicks)
    (hp : p + 1 ≤ s.payloadRetryLimit.toNat) : (s.payloadWaitAt w p).onTick =
      if p + 1 = s.payloadRetryLimit.toNat then (s.payloadWaitAt 0 (p + 1)).raiseFault .payloadTimeout
      else s.payloadWaitAt 0 (p + 1) := by
  have hcount := toNat_ofNat_succ (w := 32) (n := w) (by have := s.cfg.rxWindowTicks_lt; omega)
  have hpretry := toNat_ofNat_succ (w := 16) (n := p) (by have := s.payloadRetryLimit.isLt; omega)
  have hstop : BitVec.ofNat 16 (p + 1) = s.payloadRetryLimit ↔ p + 1 = s.payloadRetryLimit.toNat := by
    rw [← BitVec.toNat_inj, hpretry]
  rw [State.onTick_of_awaitingPayload (s := s.payloadWaitAt w p) hst]
  simp only [State.onTickPayload, State.payloadWaitAt, hcount, ofNat_succ, if_pos hw, hl, hstop, ↓reduceIte]
  rfl

/-- Settles O39: as many windows as the limit, the last tick of the last of which fails the wait. -/
theorem payloadTimeoutAfterLimit : Obligations.PayloadTimeoutAfterLimit := by
  intro s n es hst hw hp hl hs
  have hin : ∀ w p, w + 1 < s.cfg.rxWindowTicks → (s.payloadWaitAt w p).onTick = s.payloadWaitAt (w + 1) p :=
    fun w p hlt => onTick_of_inWindow (s := s.payloadWaitAt w p) (.inr hst) hlt
  have hend : ∀ w p, w + 1 = s.cfg.rxWindowTicks → p + 1 < s.payloadRetryLimit.toNat →
      (s.payloadWaitAt w p).onTick = s.payloadWaitAt 0 (p + 1) :=
    fun w p hlast hlt => by rw [onTick_payloadWaitAt_of_window hst hl hlast hlt.le, if_neg hlt.ne]
  have hpos := s.cfg.rxWindowTicks_pos
  have hlimit : 0 < s.payloadRetryLimit.toNat :=
    Nat.pos_of_ne_zero fun e => hl (BitVec.eq_of_toNat_eq e)
  have hzero := State.payloadWaitAt_zero hw hp
  rw [runFor_ticks hs]
  refine ⟨fun hn => ?before, fun hn => ?last⟩
  case before =>
    have hrun := iterate_windows hpos hin hend n hn
    rw [hzero] at hrun
    rw [hrun]
    rfl
  case last =>
    have hrun := iterate_all_windows hpos hlimit hin hend
    have hticks : s.cfg.rxWindowTicks - 1 + 1 = s.cfg.rxWindowTicks := by omega
    have hwindows : s.payloadRetryLimit.toNat - 1 + 1 = s.payloadRetryLimit.toNat := by omega
    rw [hzero] at hrun
    rw [hn, hrun, onTick_payloadWaitAt_of_window hst hl hticks hwindows.le, if_pos hwindows, hwindows,
      State.raiseFault_timeout _ _ rfl rfl, State.payloadWaitAt, BitVec.ofNat_toNat]
    rfl

end Sys2Proof.Machine
end

section
/-! PROOFS. The single steps of a command cycle (`42_transport_session.md` R131 to R143) and the cycle of a
BAUD command, which ends when its frame has been written (R136, `44_device_facade.md` R205). -/

namespace Sys2Proof.Machine

/-! ### The transport's answers -/

/-- The bytes of one send, written out (R81, R133). -/
theorem State.sendBytes_eq (s : State) : s.sendBytes = (List.range 12).map (s.byteAt .txf)
    ++ if s.lcmd = 0x71 then (List.range s.txlen.toNat).map (s.byteAt .tbuf) else [] := by
  simp only [State.sendBytes, State.bytesFrom, Nat.zero_add]

/-- Settles O29: the step sends the frame and, for 0x71, the record. -/
theorem openOkSendsMessage : Obligations.OpenOkSendsMessage := by
  intro s es hst hs
  rw [step_tpOpenOk hst hs, ← State.sendBytes_eq]
  rfl

theorem step_tpOpenFail {s : State} {es : List EnvEvent} (hst : s.st = .configuring)
    (hs : s.inbox = .tpOpenFail :: es) :
    step s = .next ((s.withInbox es).raiseFault .transportOpenFailed) := by
  rw [step_of_word_none hs rfl]
  simp only [State.react, hst]
  rfl

/-- Settles O30: the failed open is a fault of the transport, and where no wait runs a tick does nothing. -/
theorem openFailEndsCycle : Obligations.OpenFailEndsCycle := by
  intro s es
  refine ⟨fun hst hs => ?fail, fun hst hs => ?tick⟩
  case fail =>
    rw [step_tpOpenFail hst hs, State.raiseFault_transport _ _ rfl rfl]
    rfl
  case tick =>
    have hwait : s.st = .idle ∨ s.st = .failed ∨ s.st = .configuring := by
      simp only [List.mem_cons, List.not_mem_nil, or_false] at hst
      tauto
    rw [step_tick hs, onTick_withInbox, State.onTick_of_noWait hwait]
    rfl

/-- Command 0x21 is not acknowledged: its cycle ends (R135, R136). -/
theorem State.onTxWritten_of_baud {s : State} (hc : s.lcmd = 0x21) : s.onTxWritten = s.normalEnd :=
  if_pos hc

/-- Every other command begins to wait for its acknowledgment (R135). -/
theorem State.onTxWritten_of_ne_baud {s : State} (hc : s.lcmd ≠ 0x21) :
    s.onTxWritten = { s with wtimer := 0, retry := 0, st := .awaitingAck } :=
  if_neg hc

/-- Settles O32: the two outcomes of a finished write. -/
theorem txWrittenEndsBaudOrAwaitsAck : Obligations.TxWrittenEndsBaudOrAwaitsAck := by
  intro s es hst hs
  rw [step_txWritten hst hs, onTxWritten_withInbox]
  refine ⟨fun hc => ?baud, fun hc => ?other⟩
  case baud =>
    rw [State.onTxWritten_of_baud hc, State.normalEnd_eq]
    rfl
  case other =>
    rw [State.onTxWritten_of_ne_baud hc]
    rfl

/-! ### Chunks -/

theorem step_rxChunk_of_awaitingPayload {s : State} {b : Byte} {bs : List Byte} {es : List EnvEvent}
    (hst : s.st = .awaitingPayload) (hs : s.inbox = .rxChunk b bs :: es) :
    step s = .next ((s.withInbox es).onChunkPayload (b :: bs)) := by
  rw [step_of_word_none hs rfl]
  simp only [State.react, State.withInbox, hst]

/-- Bytes that the acknowledgment has room for reach neither PBUF nor its overflow flag (R139). -/
theorem foldl_storeByte_of_fits (bs : List Byte) {s : State} (h : s.rlen.toNat + bs.length ≤ 12) :
    (bs.foldl State.storeByte s).pbuf = s.pbuf ∧ (bs.foldl State.storeByte s).wPbufOvf = s.wPbufOvf := by
  induction bs generalizing s with
  | nil => exact ⟨rfl, rfl⟩
  | cons b bs ih =>
    rw [List.length_cons] at h
    have hbyte : (s.storeByte b).pbuf = s.pbuf ∧ (s.storeByte b).wPbufOvf = s.wPbufOvf := by
      rcases s.storeByte_cases b with ⟨_, e⟩ | ⟨hfull, _⟩ | ⟨hfull, _⟩
      · rw [e]
        exact ⟨rfl, rfl⟩
      · omega
      · omega
    obtain ⟨hpbuf, hovf⟩ := hbyte
    rw [List.foldl_cons, ← hpbuf, ← hovf]
    exact ih (by rw [toNat_rlen_storeByte (by omega)]; omega)

/-- A chunk that the acknowledgment has room for changes ACK, RLEN and WTIMER alone (R139). -/
theorem State.store_of_fits {s : State} {bs : List Byte} (h : s.rlen.toNat + bs.length ≤ 12) :
    s.store bs = { s with ack := (s.store bs).ack, rlen := (s.store bs).rlen, wtimer := 0 } := by
  obtain ⟨hpbuf, hovf⟩ : (s.store bs).pbuf = s.pbuf ∧ (s.store bs).wPbufOvf = s.wPbufOvf :=
    foldl_storeByte_of_fits bs h
  have hframe := s.store_frame bs
  rwa [hpbuf, hovf] at hframe

/-- Settles O34: the chunk is stored, and the acknowledgment is not complete. -/
theorem shortAckChunkKeepsWaiting : Obligations.ShortAckChunkKeepsWaiting := by
  intro s b bs es hst hshort hs
  obtain ⟨hrlen, -, hbytes⟩ := chunkStoredInOrder (s.withInbox es) (b :: bs)
  have hcount : ((s.withInbox es).store (b :: bs)).rlen.toNat = s.rlen.toNat + (bs.length + 1) := by
    have hsum : min (s.rlen.toNat + (bs.length + 1)) (2 ^ 32 - 1) = s.rlen.toNat + (bs.length + 1) := by omega
    exact hrlen.trans hsum
  have hwait : step s = .next ((s.withInbox es).store (b :: bs)) := by
    rw [step_rxChunk_of_awaitingAck hst hs, State.onChunkAck, hcount, if_neg (by omega)]
  refine ⟨_, hwait, fun i => ?bytes, hcount, ?frame⟩
  case bytes =>
    obtain ⟨hack, -⟩ := hbytes (show s.rlen.toNat + (bs.length + 1) < 2 ^ 32 by omega)
    refine (hack i).trans (if_congr ?_ rfl rfl)
    show s.rlen.toNat ≤ i ∧ i < s.rlen.toNat + (bs.length + 1) ∧ i < 12 ↔ _
    omega
  case frame =>
    rw [State.store_of_fits (s := s.withInbox es) (bs := b :: bs) hshort.le]
    rfl

theorem State.onChunkPayload_of_complete {s : State} {bs : List Byte}
    (h : (s.store bs).payloadComplete = true) : s.onChunkPayload bs = (s.store bs).normalEnd :=
  if_pos h

theorem State.onChunkPayload_of_incomplete {s : State} {bs : List Byte}
    (h : (s.store bs).payloadComplete = false) : s.onChunkPayload bs = s.store bs :=
  if_neg (ne_true_of_eq_false h)

/-- Settles O36: the chunk is stored, and the payload is complete or not. -/
theorem payloadChunkEndsOrWaits : Obligations.PayloadChunkEndsOrWaits := by
  intro s b bs es hst hs
  refine ⟨_, step_rxChunk_of_awaitingPayload hst hs, ?_⟩
  intro d received
  obtain ⟨hrlen, -⟩ : d.rlen.toNat = received ∧ _ := chunkStoredInOrder (s.withInbox es) (b :: bs)
  obtain ⟨hdeclen, hevt, hevlog, hport⟩ :
      d.declen = s.declen ∧ d.evt = s.evt ∧ d.evlog = s.evlog ∧ d.portlog = s.portlog := by
    rw [show d = _ from (s.withInbox es).store_frame (b :: bs)]
    exact ⟨rfl, rfl, rfl, rfl⟩
  rcases Nat.lt_or_ge (received - 12) s.declen.toNat with hmore | hall
  · have hwait : (s.withInbox es).onChunkPayload (b :: bs) = d :=
      State.onChunkPayload_of_incomplete
        (State.payloadComplete_eq_false.2 (by rwa [← hdeclen, ← hrlen] at hmore))
    rw [hwait]
    exact ⟨hrlen, fun hall => absurd hmore hall.not_gt, fun _ => rfl⟩
  · have hend : (s.withInbox es).onChunkPayload (b :: bs) = d.normalEnd :=
      State.onChunkPayload_of_complete (decide_eq_true (by rwa [← hdeclen, ← hrlen] at hall))
    rw [hend, State.normalEnd_eq, hevt, hevlog, hport]
    exact ⟨hrlen, fun _ => rfl, fun hmore => absurd hmore hall.not_gt⟩

/-! ### The BAUD cycle -/

theorem runRefusal_baud (s : State) (a : FrameArgs) :
    (s.loadOperands Command.baud.byte a).runRefusal = none :=
  State.runRefusal_eq_none.2 ⟨nofun, by rintro ⟨⟩, by rintro ⟨⟩⟩

/-- The bytes sent after an accepted RUN of a command but 0x71 are its frame (R133, R190). -/
theorem sendBytes_runAccept {s : State} (hc : s.x[0] ≠ 0x71) : s.runAccept.sendBytes = s.frame := by
  have hcmd : s.runAccept.lcmd ≠ 0x71 := hc
  have htxf : s.runAccept.bytesFrom .txf 0 12 = s.frame := bytesFrom_txf_latchFrame s
  rw [State.sendBytes, if_neg hcmd, List.append_nil, htxf]

/-- The cycle of a BAUD command ends when its frame is written (R135, R136). -/
theorem commandSent_baud (a : FrameArgs) (s : State) :
    s.commandSent .baud a = (s.loadOperands 0x21 a).runAccept.onTpOpenOk.normalEnd :=
  State.onTxWritten_of_baud (s := (s.loadOperands 0x21 a).runAccept.onTpOpenOk) rfl

/-- Settles O41: three events carry the command to the end of its cycle. -/
theorem baudCycleIsNotAcknowledged : Obligations.BaudCycleIsNotAcknowledged := by
  intro s a f es hb hf hs
  have hrun := runFor_commandSent (c := .baud) hb hf (runRefusal_baud s a) hs 0
  have hcmd : (0x21 : Byte) ≠ 0x71 := by decide
  have hsent : (s.loadOperands 0x21 a).runAccept.sendBytes = encode (.baud a) :=
    sendBytes_runAccept (s := s.loadOperands 0x21 a) hcmd
  rw [commandSent_baud, State.normalEnd_eq] at hrun
  refine ⟨_, hrun, rfl, rfl, rfl, rfl, rfl, rfl, rfl, rfl, rfl, ?txlog, rfl, rfl, rfl, rfl⟩
  case txlog => exact congrArg (s.txlog ++ ·) hsent

end Sys2Proof.Machine
end

section
/-! PROOFS. The Record Codec (`43_record_codec.md` R165 to R182): the decimal digits of an id, the refusals
and the frame of ENCTPL, the Format A record of two templates, the directory DECDIR decodes and the rows
FLIPIMG copies. -/

namespace Sys2Proof.Machine

/-! ### ID2B -/

theorem exec_id2b_of_idle {s : State} (hb : s.busy = false) : exec .id2b s = .next s.id2bOp :=
  congrArg Host.Outcome.next (State.whenIdle_of_idle hb State.id2bOp)

/-- Settles O17: ID2B's one test is the range of the id. -/
theorem id2bWritesDecimalDigits : Obligations.Id2bWritesDecimalDigits := by
  intro s hb n
  refine ⟨fun hle => ?_, fun hgt => ?_⟩
  · rw [exec_id2b_of_idle hb, State.id2bOp, if_neg (Nat.not_lt.2 hle), State.complete_eq]
    rfl
  · rw [exec_id2b_of_idle hb, State.id2bOp, if_pos hgt, State.refuse_eq]

/-- A decimal string read in another base: the last digit, and the leading digits one place up. -/
theorem ofDigits_digits_ten (b n : Nat) :
    Nat.ofDigits b (Nat.digits 10 n) = n % 10 + b * Nat.ofDigits b (Nat.digits 10 (n / 10)) := by
  rcases Nat.eq_zero_or_pos n with rfl | hpos
  · simp
  · rw [Nat.digits_def' (by decide) hpos, Nat.ofDigits_cons]

/-- A number of two decimal digits at most, read as hexadecimal: one digit per nibble. -/
theorem ofDigits_sixteen_of_lt {n : Nat} (h : n < 100) :
    Nat.ofDigits 16 (Nat.digits 10 n) = 16 * (n / 10) + n % 10 := by
  have hrest : n / 10 / 10 = 0 := by omega
  rw [ofDigits_digits_ten, ofDigits_digits_ten, hrest, Nat.digits_zero, Nat.ofDigits_nil]
  omega

/-- The last two characters of a decimal string, and the leading ones. -/
theorem digits_ten_of_ge {n : Nat} (h : 10 ≤ n) :
    Nat.digits 10 n = n % 10 :: n / 10 % 10 :: Nat.digits 10 (n / 100) := by
  rw [Nat.digits_def' (by decide) (by omega), Nat.digits_def' (by decide) (by omega), Nat.div_div_eq_div_mul]

/-- Settles O18: a byte of an id is a string of at most two digits, read as hexadecimal. -/
theorem idBytesAreHexReadDecimalString : Obligations.IdBytesAreHexReadDecimalString := by
  intro id hid
  refine ⟨fun hshort => ⟨?_, ?_⟩, fun hlong => ?_⟩
  · rw [toNat_id2bLow, ofDigits_sixteen_of_lt hshort]
    omega
  · apply BitVec.eq_of_toNat_eq
    rw [toNat_id2bHigh hid]
    show _ = 0
    omega
  · have hsplit := digits_ten_of_ge (show 10 ≤ id by omega)
    have hlast : (Nat.digits 10 id).take 2 = [id % 10, id / 10 % 10] := by rw [hsplit]; rfl
    have hlead : (Nat.digits 10 id).drop 2 = Nat.digits 10 (id / 100) := by rw [hsplit]; rfl
    rw [hlast, hlead, ofDigits_sixteen_of_lt (by omega), toNat_id2bLow, toNat_id2bHigh hid]
    refine ⟨?_, by omega⟩
    simp only [Nat.ofDigits_cons, Nat.ofDigits_nil]
    omega

/-! ### What ENCTPL refuses and what it leaves -/

theorem exec_enctpl_of_idle {s : State} (hb : s.busy = false) : exec .enctpl s = .next s.enctplOp :=
  congrArg Host.Outcome.next (State.whenIdle_of_idle hb State.enctplOp)

/-- Settles O21, by the refusals in the order they are tested (R167). -/
theorem enctplRefused : Obligations.EnctplRefused := by
  intro s hb refused
  have hrefused : ∀ code, s.enctplOp = s.refuse code → refused code := fun code hop => by
    show exec .enctpl s = _
    rw [exec_enctpl_of_idle hb, hop, State.refuse_eq]
  refine ⟨fun hid => hrefused _ ?_, fun hid hlong => hrefused _ ?_, fun hid hf hshort => hrefused _ ?_⟩
  · rw [State.enctplOp, if_pos hid]
  · rw [State.enctplOp, if_neg (Nat.not_lt.2 hid), if_pos hlong]
  · have hfits : ¬ 1600 < s.hlen.toNat := by omega
    rw [State.enctplOp, if_neg (Nat.not_lt.2 hid), if_neg hfits, if_pos ⟨hf, hshort⟩]

/-- What ENCTPL can do: refuse, or write the record of its format (R167). -/
theorem State.enctplOp_cases (s : State) : (∃ code, s.enctplOp = s.refuse code) ∨
    (s.fmt = 1 ∧ s.enctplOp = s.writeRecord (recordB s.idIn.toNat s.copyB) s.copyB) ∨
    (s.fmt ≠ 1 ∧ s.enctplOp = s.writeRecord (recordA s.idIn.toNat s.copyA) s.copyA) := by
  unfold State.enctplOp
  split_ifs with hid hlong hshort hf
  · exact .inl ⟨_, rfl⟩
  · exact .inl ⟨_, rfl⟩
  · exact .inl ⟨_, rfl⟩
  · exact .inr (.inl ⟨hf, rfl⟩)
  · exact .inr (.inr ⟨hf, rfl⟩)

/-- `t` is `s` after one pure operation that wrote nothing but TBUF below index `n`, TXLEN and the two
template flags (R167). -/
def WritesRecordBelow (n : Nat) (s t : State) : Prop :=
  (∀ i, n ≤ i → t.byteAt .tbuf i = s.byteAt .tbuf i) ∧
  t.evt = s.evt ||| 1 ∧ t.evlog = s.evlog ++ [(.done, none)] ∧
  { t with tbuf := s.tbuf, txlen := s.txlen, wTplClip := s.wTplClip, wTplOor := s.wTplOor,
           resultClass := s.resultClass, resultCode := s.resultCode, evt := s.evt, evlog := s.evlog } = s

theorem writesRecordBelow_refuse (n : Nat) (s : State) (code : Byte) :
    WritesRecordBelow n s (s.refuse code) := by
  rw [State.refuse_eq]
  exact ⟨fun _ _ => rfl, rfl, rfl, rfl⟩

theorem writesRecordBelow_writeRecord (s : State) {rec : List Byte} {n : Nat} (hl : rec.length = n)
    (c : TemplateCopy) : WritesRecordBelow n s (s.writeRecord rec c) := by
  refine ⟨fun i hi => ?_, ?_⟩
  · rw [State.byteAt_writeRecord, if_neg (by omega)]
  · rw [State.writeRecord_eq]
    exact ⟨rfl, rfl, rfl⟩

/-- Settles O20: a refusal writes no buffer, and a record has the size of its format. -/
theorem enctplFrame : Obligations.EnctplFrame := by
  intro s hb
  refine ⟨_, exec_enctpl_of_idle hb, ?_⟩
  show WritesRecordBelow (if s.fmt = 1 then 816 else 1616) s s.enctplOp
  rcases s.enctplOp_cases with ⟨code, hop⟩ | ⟨hf, hop⟩ | ⟨hf, hop⟩ <;> rw [hop]
  · exact writesRecordBelow_refuse _ s code
  · rw [if_pos hf]
    exact writesRecordBelow_writeRecord s (s.length_recordB _) _
  · rw [if_neg hf]
    exact writesRecordBelow_writeRecord s (s.length_recordA _) _

/-! ### Two templates in a Format A record -/

theorem State.toNat_hashRead (s : State) (i : Nat) :
    (s.hashRead i).toNat = if i < s.hlen.toNat then (s.byteAt .hbuf i).toNat else 0 :=
  apply_ite BitVec.toNat _ _ _

/-- A hash longer than its length field holds a second template from there on (R168 to R171). -/
theorem copyA_of_twoTemplates {s : State} (h : s.lenField 0 < s.hlen.toNat) : s.copyA =
    { t1 := s.hashBytes 0 (min (s.lenField 0) Config.slot)
      t2 := s.hashBytes (s.lenField 0)
        (min (min (s.lenField (s.lenField 0)) (s.hlen.toNat - s.lenField 0)) Config.slot)
      clip := Config.slot < s.lenField 0 ||
        min (min (s.lenField (s.lenField 0)) (s.hlen.toNat - s.lenField 0)) Config.slot
          < s.lenField (s.lenField 0)
      oor := s.lenFieldOut (s.lenField 0) } :=
  if_pos h

/-- Settles O23: the record is that of Format A, with T1 up to the first length field and T2 sized by its
own. -/
theorem enctplFormatATwoTemplates : Obligations.EnctplFormatATwoTemplates := by
  intro s hb hf hid hlow hhigh rd l1 l2 n2 htwo
  have hfield : ∀ p, s.lenField p = 256 * rd (p + 8) + rd (p + 9) := fun p => by
    rw [State.lenField, State.toNat_hashRead, State.toNat_hashRead]
  have hl1 : s.lenField 0 = l1 := hfield 0
  have hl2 : s.lenField l1 = l2 := hfield l1
  have hn2 : min (min l2 (s.hlen.toNat - l1)) Config.slot = n2 := min_assoc _ _ _
  have hcopy := copyA_of_twoTemplates (s := s) (by rwa [hl1])
  rw [hl1, hl2, hn2] at hcopy
  have hl := s.length_recordA s.idIn.toNat
  obtain ⟨hslot1, hslot2, htail⟩ := getD_recordA s.copyA_fits.1 s.copyA_fits.2 s.idIn.toNat
  have hbyte := fun i (hi : i < 1616) => byteAt_writeRecord_of_lt s hl s.copyA hi
  refine ⟨_, exec_enctpl_of_formatA hb hf hid hlow hhigh, rfl, rfl, txlen_writeRecord s hl _,
    hbyte 0 (by omega), hbyte 1 (by omega), hbyte 2 (by omega), hbyte 3 (by omega),
    fun j hj => ?t1, fun j hj => ?t2, fun j hj => ?tail, ?clip, ?oor⟩
  case t1 =>
    have hmin : j < min l1 Config.slot ↔ j < l1 := lt_min_iff.trans (and_iff_left hj)
    rw [hbyte _ (by omega), hslot1 j hj, hcopy, getD_hashBytes, Nat.zero_add]
    exact if_congr hmin rfl rfl
  case t2 => rw [hbyte _ (by omega), hslot2 j hj, hcopy, getD_hashBytes]
  case tail => rw [hbyte _ (by omega), htail j hj]
  case clip => rw [State.writeRecord_eq, hcopy, Bool.decide_or]
  case oor =>
    rw [State.writeRecord_eq, hcopy]
    rfl

/-! ### DECDIR -/

/-- DECDIR, performed (R174). -/
def State.decodeDir (s : State) : State :=
  (({ s with dirmap := some s.decodedIds, dirCount := BitVec.ofNat 14 s.decodedIds.length } :
    State).noteBadDigit (s.dirEntries.any fun e => !e.2)).complete

theorem exec_decdir_of_short {s : State} (hb : s.busy = false) (h : s.plen < 12 * s.entryCount.toNat) :
    exec .decdir s = .next (s.refuse 0x07) :=
  congrArg Host.Outcome.next ((State.whenIdle_of_idle hb State.decdirOp).trans (if_pos h))

theorem exec_decdir_of_fits {s : State} (hb : s.busy = false) (h : 12 * s.entryCount.toNat ≤ s.plen) :
    exec .decdir s = .next s.decodeDir :=
  congrArg Host.Outcome.next ((State.whenIdle_of_idle hb State.decdirOp).trans (if_neg (Nat.not_lt.2 h)))

theorem State.decodeDir_eq (s : State) : s.decodeDir =
    { s with
      dirmap := some s.decodedIds, dirCount := BitVec.ofNat 14 s.decodedIds.length
      wBadDigit := s.wBadDigit || s.dirEntries.any fun e => !e.2
      resultClass := .ok, resultCode := 0, evt := s.evt ||| 1, evlog := s.evlog ++ [(.done, none)] } :=
  State.complete_eq _

/-- The valid pairs of the entries, and no other ids, are entered (R174, R176). -/
theorem mem_foldl_enterId (i : Nat) (es : List (Nat × Bool)) (l : List Nat) :
    i ∈ es.foldl enterId l ↔ i ∈ l ∨ (i, true) ∈ es := by
  induction es generalizing l with
  | nil => simp
  | cons e es ih =>
    obtain ⟨v, valid⟩ := e
    rw [List.foldl_cons, ih]
    cases valid with
    | false => simp [enterId]
    | true =>
      simp only [enterId, if_true, mem_insertId, List.mem_cons, Prod.mk.injEq, and_true]
      tauto

theorem State.mem_dirEntries {s : State} {e : Nat × Bool} :
    e ∈ s.dirEntries ↔ ∃ k, k < s.entryCount.toNat ∧ s.dirEntry k = e := by
  simp only [State.dirEntries, List.mem_map, List.mem_range]

theorem State.mem_decodedIds {s : State} {i : Nat} :
    i ∈ s.decodedIds ↔ ∃ k, k < s.entryCount.toNat ∧ s.dirEntry k = (i, true) := by
  rw [State.decodedIds, mem_foldl_enterId, State.mem_dirEntries]
  exact or_iff_right List.not_mem_nil

/-- Some entry has a nibble above 9 (R176). -/
theorem State.any_dirEntries_invalid {s : State} : (s.dirEntries.any fun e => !e.2) = true ↔
    ∃ k, k < s.entryCount.toNat ∧ (s.dirEntry k).2 = false := by
  simp only [State.dirEntries, List.any_map, List.any_eq_true, List.mem_range, Function.comp_apply,
    Bool.not_eq_true']

/-- The bits of DIRMAP that are 1 are as many as the ids listed. -/
theorem IdsLegal.length_filter_contains {l : List Nat} (h : IdsLegal l) :
    ((List.range 10000).filter l.contains).length = l.length := by
  obtain ⟨hp, hlt⟩ := h
  have hnodup : l.Nodup := hp.imp Nat.ne_of_lt
  refine ((List.perm_ext_iff_of_nodup (List.nodup_range.filter _) hnodup).2 fun i => ?_).length_eq
  rw [List.mem_filter, List.mem_range, List.contains_iff_mem]
  exact and_iff_right_of_imp (hlt i)

/-- Settles O25: a bit of DIRMAP is membership among the decoded ids, which are counted without
repetition. -/
theorem decdirDecodesDirectory : Obligations.DecdirDecodesDirectory := by
  intro s hb entry
  refine ⟨fun hfits => ?_, fun hshort => ?_⟩
  · have hbit : s.decodeDir.dirBit = s.decodedIds.contains := rfl
    have hcount : s.decodeDir.dirCount.toNat = s.decodedIds.length := s.toNat_dirCount_decoded
    have hbad : s.decodeDir.wBadDigit = (s.wBadDigit || s.dirEntries.any fun e => !e.2) := rfl
    refine ⟨_, exec_decdir_of_fits hb hfits, fun i => ?_, ?_, ?_, rfl, rfl, rfl, rfl, ?_⟩
    · rw [hbit, List.contains_iff_mem]
      exact State.mem_decodedIds
    · rw [hbit, hcount, s.idsLegal_decodedIds.length_filter_contains]
    · rw [hbad, Bool.or_eq_true, State.any_dirEntries_invalid]
      rfl
    · rw [State.decodeDir_eq]
  · rw [exec_decdir_of_short hb hshort, State.refuse_eq]

/-! ### FLIPIMG -/

theorem exec_flipimg_of_short {s : State} (hb : s.busy = false) (h : s.plen < 19500) :
    exec .flipimg s = .next (s.refuse 0x08) :=
  congrArg Host.Outcome.next ((State.whenIdle_of_idle hb State.flipimgOp).trans (if_pos h))

theorem exec_flipimg_of_fits {s : State} (hb : s.busy = false) (h : 19500 ≤ s.plen) :
    exec .flipimg s = .next ((List.range 150).foldl State.flipRow s).complete :=
  congrArg Host.Outcome.next ((State.whenIdle_of_idle hb State.flipimgOp).trans (if_neg (Nat.not_lt.2 h)))

theorem State.byteAt_pbuf_flipRow (s : State) (a k : Nat) :
    (s.flipRow a).byteAt .pbuf k = s.byteAt .pbuf k :=
  s.byteAt_writeBytes_of_ne _ _ (by decide) k

/-- Copying row `a` writes, among the pixels of the output, those of row 149 - a (R180). -/
theorem State.byteAt_flipRow_pixel (s : State) {a i j : Nat} (ha : a < 150) (hi : i < 150) (hj : j < 130) :
    (s.flipRow a).byteAt .ibuf (132 * (149 - i) + j) =
      if i = a then s.byteAt .pbuf (130 * i + j) else s.byteAt .ibuf (132 * (149 - i) + j) := by
  rw [State.byteAt_flipRow]
  by_cases h : i = a
  · subst h
    rw [if_pos (by omega), if_pos rfl, Nat.add_sub_cancel_left]
  · rw [if_neg (by omega), if_neg h]

/-- After any rows are copied, the pixels of those rows come from PBUF and the others are as they were. -/
theorem State.byteAt_foldl_flipRow_pixel {i j : Nat} (hi : i < 150) (hj : j < 130) {rows : List Nat}
    (hrows : ∀ a ∈ rows, a < 150) (s : State) :
    (rows.foldl State.flipRow s).byteAt .ibuf (132 * (149 - i) + j) =
      if i ∈ rows then s.byteAt .pbuf (130 * i + j) else s.byteAt .ibuf (132 * (149 - i) + j) := by
  induction rows generalizing s with
  | nil => rfl
  | cons a rows ih =>
    obtain ⟨ha, hrest⟩ := List.forall_mem_cons.1 hrows
    rw [List.foldl_cons, ih hrest, State.byteAt_pbuf_flipRow, s.byteAt_flipRow_pixel ha hi hj]
    by_cases hmem : i ∈ rows
    · rw [if_pos hmem, if_pos (List.mem_cons_of_mem a hmem)]
    · simp only [List.mem_cons, hmem, or_false, if_false]

/-- No row is copied to a pad byte or beyond the image (R182). -/
theorem State.byteAt_foldl_flipRow_pad {k : Nat} (hk : 19800 ≤ k ∨ 130 ≤ k % 132) (rows : List Nat)
    (s : State) : (rows.foldl State.flipRow s).byteAt .ibuf k = s.byteAt .ibuf k := by
  induction rows generalizing s with
  | nil => rfl
  | cons a rows ih => rw [List.foldl_cons, ih, State.byteAt_flipRow, if_neg (by omega)]

/-- Settles O27: every row is copied once, and no pad byte by any. -/
theorem flipimgMovesPixels : Obligations.FlipimgMovesPixels := by
  intro s hb
  refine ⟨fun hfits => ?_, fun hshort => ?_⟩
  · refine ⟨_, exec_flipimg_of_fits hb hfits, fun i j hi hj => ?_, fun k hk => ?_, ?_⟩
    · rw [State.byteAt_complete,
        State.byteAt_foldl_flipRow_pixel hi hj (fun a => List.mem_range.1), if_pos (List.mem_range.2 hi)]
    · rw [State.byteAt_complete, State.byteAt_foldl_flipRow_pad hk]
    · rw [State.complete_eq, State.foldl_flipRow_eq]
  · rw [exec_flipimg_of_short hb hshort, State.refuse_eq]

end Sys2Proof.Machine
end

section
/-! PROOFS. The Device Facade: RUN and the commands it starts (`44_device_facade.md` R190, R191, R204 to
R215), the free-id search (R203), and what every instruction does in Failed (R199). -/

namespace Sys2Proof.Machine

/-! ### RUN -/

theorem exec_run_of_idle {s : State} (hb : s.busy = false) : exec .run s = .next s.runOp :=
  congrArg Host.Outcome.next (State.whenIdle_of_idle hb State.runOp)

/-- `t` is `v` with a cycle started: the frame latched, the cycle's registers cleared, the transport asked
to open at BAUD (R130, R190). -/
def StartsCycle (v t : State) : Prop :=
  t.bytesFrom .txf 0 12 = v.frame ∧ (∀ i, 12 ≤ i → t.byteAt .txf i = v.byteAt .txf i) ∧
  { t with txf := v.txf } =
    { v with
      busy := true, lcmd := v.x[0], rlen := 0, retry := 0, pretry := 0, wtimer := 0
      errcode := 0, param1 := 0, param2 := 0, p1Valid := false, p2Valid := false, declen := 0
      resultClass := .ok, resultCode := 0, degraded := false, st := .configuring
      portlog := v.portlog ++ [.tpOpenReq v.baud ⟨8, false, 1, false⟩, .tpClearError] }

theorem startsCycle_runAccept (s : State) : StartsCycle s s.runAccept := by
  refine ⟨bytesFrom_txf_latchFrame s, fun i hi => byteAt_txf_latchFrame_of_ge s hi, ?_⟩
  rw [State.runAccept_eq]

/-- Settles O9: none of the refusal conditions holds, so the cycle starts. -/
theorem runAcceptedStartsCycle : Obligations.RunAcceptedStartsCycle := by
  intro s hb hcmd htxlen hexpect
  have haccept : s.runRefusal = none := State.runRefusal_eq_none.2 ⟨hcmd, htxlen, hexpect⟩
  refine ⟨s.runAccept, ?_, startsCycle_runAccept s⟩
  rw [exec_run_of_idle hb, State.runOp_of_accepted haccept]

theorem runRefusal_of_unknown {s : State} (h : Command.ofByte s.x[0] = none) :
    s.runRefusal = some 0x02 :=
  if_pos h

/-- The conditions on TXLEN and EXPECT_LEN concern two different commands, so each of them is the first to
hold (R191). -/
theorem runRefusal_of_txlen {s : State} (hc : s.x[0] = 0x71) (h : 1616 < s.txlen.toNat) :
    s.runRefusal = some 0x03 := by
  have hknown : ¬ Command.ofByte s.x[0] = none := by rw [hc]; decide
  rw [State.runRefusal, if_neg hknown, if_pos ⟨hc, h⟩]

theorem runRefusal_of_expectLen {s : State} (hc : s.x[0] = 0x43)
    (h : s.cfg.pbufCap < s.expectLen.toNat) : s.runRefusal = some 0x04 := by
  have hknown : ¬ Command.ofByte s.x[0] = none := by rw [hc]; decide
  have hother : ¬ (s.x[0] = 0x71 ∧ 1616 < s.txlen.toNat) := fun ⟨hput, _⟩ => by
    rw [hc] at hput
    exact absurd hput (by decide)
  rw [State.runRefusal, if_neg hknown, if_neg hother, if_pos ⟨hc, h⟩]

/-- Settles O10: RUN's refusal is that of the first condition, and a busy block does not look at them. -/
theorem runRefusedByFirstCondition : Obligations.RunRefusedByFirstCondition := by
  intro s
  refine ⟨startIgnoredWhileBusy .run s, fun hb => ?_⟩
  intro refused
  have hrefused : ∀ code, s.runRefusal = some code → refused code := fun code hr => by
    show exec .run s = _
    rw [exec_run_of_idle hb, State.runOp_of_refused hr, State.refuse_eq]
  exact ⟨fun h => hrefused _ (runRefusal_of_unknown h), fun hc h => hrefused _ (runRefusal_of_txlen hc h),
    fun hc h => hrefused _ (runRefusal_of_expectLen hc h)⟩

/-! ### The device commands -/

theorem Command.byte_injective : Function.Injective Command.byte := fun c d h => by
  have hsome : some c = some d := by rw [← Command.ofByte_byte c, h, Command.ofByte_byte]
  exact Option.some.inj hsome

/-- RUN can refuse an issued command only for the limit of PUT_TEMPLATE or of GET_IMAGE (R191). -/
theorem runRefusal_loadOperands {c : Command} {s : State} (a : FrameArgs)
    (hput : c = .putTemplate → s.txlen.toNat ≤ 1616)
    (himage : c = .getImage → s.expectLen.toNat ≤ s.cfg.pbufCap) :
    (s.loadOperands c.byte a).runRefusal = none := by
  have hknown : Command.ofByte c.byte ≠ none := by simp
  exact State.runRefusal_eq_none.2 ⟨hknown, fun h => hput (Command.byte_injective (a₂ := .putTemplate) h),
    fun h => himage (Command.byte_injective (a₂ := .getImage) h)⟩

/-- A command issued while idle and within its limit starts the cycle of its operands (R190, R204). -/
theorem exec_command_startsCycle {c : Command} {s : State} (a : FrameArgs) (hb : s.busy = false)
    (hput : c = .putTemplate → s.txlen.toNat ≤ 1616)
    (himage : c = .getImage → s.expectLen.toNat ≤ s.cfg.pbufCap) :
    ∃ t, exec (c.instr a) s = .next t ∧ StartsCycle (s.loadOperands c.byte a) t := by
  refine ⟨(s.loadOperands c.byte a).runAccept, ?_, startsCycle_runAccept _⟩
  rw [exec_commandInstr, State.issue_of_idle hb,
    State.runOp_of_accepted (runRefusal_loadOperands a hput himage)]

/-- Settles O14: the nine commands are those that no limit concerns. -/
theorem commandsStartTheirCycle : Obligations.CommandsStartTheirCycle := by
  intro a s i cmd hmem hb
  obtain ⟨c, hc, hic⟩ : ∃ c ∈ [Command.baud, .status, .enrollStart, .enrollFinish, .delete, .verify,
      .identify, .getTemplate, .list], (c.instr a, c.byte) = (i, cmd) := List.mem_map.1 hmem
  obtain ⟨rfl, rfl⟩ := Prod.mk.inj hic
  rw [encode_commandInstr]
  exact exec_command_startsCycle a hb (by rintro rfl; exact absurd hc (by decide))
    (by rintro rfl; exact absurd hc (by decide))

/-- Settles O15: each of the two commands is within its own limit, and the other's does not concern it. -/
theorem imageAndTemplateCommandsStartTheirCycle : Obligations.ImageAndTemplateCommandsStartTheirCycle := by
  intro a s i cmd hb hcase
  rcases hcase with ⟨hic, hlimit⟩ | ⟨hic, hlimit⟩ <;> obtain ⟨rfl, rfl⟩ := Prod.mk.inj hic
  · exact exec_command_startsCycle (c := .getImage) a hb nofun fun _ => hlimit
  · exact exec_command_startsCycle (c := .putTemplate) a hb (fun _ => hlimit) nofun

/-! ### The free-id search -/

/-- Bits that are 1 from the next index on, as far as `P` goes, are 1 from a set bit on. -/
theorem allSet_from {bit : Nat → Bool} {i : Nat} {P : Nat → Prop} (hi : bit i = true)
    (h : ∀ j, i + 1 ≤ j → P j → bit j = true) (j : Nat) (hij : i ≤ j) (hj : P j) : bit j = true := by
  rcases hij.eq_or_lt with rfl | hlt
  · exact hi
  · exact h j hlt hj

/-- The scan stops at the first index whose bit is 0, or has found every bit 1 (R203). -/
theorem firstFree_cases (bit : Nat → Bool) (i n : Nat) :
    (i ≤ firstFree bit i n ∧ firstFree bit i n < i + n ∧ bit (firstFree bit i n) = false ∧
      ∀ j, i ≤ j → j < firstFree bit i n → bit j = true) ∨
    (firstFree bit i n = 10000 ∧ ∀ j, i ≤ j → j < i + n → bit j = true) := by
  induction n generalizing i with
  | zero => exact .inr ⟨rfl, fun j hij hj => absurd hij hj.not_ge⟩
  | succ n ih =>
    cases hbit : bit i with
    | false =>
      have hstop : firstFree bit i (n + 1) = i := by rw [firstFree, hbit]; rfl
      rw [hstop]
      exact .inl ⟨le_rfl, by omega, hbit, fun j hij hj => absurd hij hj.not_ge⟩
    | true =>
      have hgo : firstFree bit i (n + 1) = firstFree bit (i + 1) n := by rw [firstFree, hbit]; rfl
      rw [hgo]
      rcases ih (i + 1) with ⟨hge, hlt, hfree, hbelow⟩ | ⟨hnone, hall⟩
      · exact .inl ⟨by omega, by omega, hfree, allSet_from hbit hbelow⟩
      · exact .inr ⟨hnone, allSet_from hbit fun j hij hj => hall j hij (by omega)⟩

theorem exec_nextfree_of_idle {s : State} (hb : s.busy = false) : exec .nextfree s = .next s.nextfreeOp :=
  congrArg Host.Outcome.next (State.whenIdle_of_idle hb State.nextfreeOp)

/-- NEXT_FREE holds what the scan from 1 to 9999 finds: it fits the register (R22). -/
theorem State.toNat_nextFree_nextfreeOp (s : State) :
    s.nextfreeOp.nextFree.toNat = firstFree s.dirBit 1 9999 := by
  have hle : firstFree s.dirBit 1 9999 ≤ 10000 := firstFree_le _ le_rfl
  have hstored : s.nextfreeOp.nextFree = BitVec.ofNat 14 (firstFree s.dirBit 1 9999) := rfl
  rw [hstored, BitVec.toNat_ofNat, Nat.mod_eq_of_lt (by omega)]

/-- Settles O26: the scan from 1 over 9999 indices, and the end of a pure operation. -/
theorem nextfreeFindsFirstGap : Obligations.NextfreeFindsFirstGap := by
  intro s hb
  refine ⟨_, exec_nextfree_of_idle hb, ?_, ?_⟩
  · rw [State.toNat_nextFree_nextfreeOp]
    rcases firstFree_cases s.dirBit 1 9999 with ⟨hge, hlt, hfree, hbelow⟩ | ⟨hnone, hall⟩
    · exact .inl ⟨hge, by omega, hfree, hbelow⟩
    · exact .inr ⟨hnone, fun i hi hle => hall i hi (by omega)⟩
  · rw [State.nextfreeOp, State.complete_eq]

/-! ### Failed and Idle -/

/-- The state with another sequencer state. -/
def State.withSt (q : SeqState) (s : State) : State := { s with st := q }

/-- The operation leaves ST alone and does not look at it. -/
def IgnoresSt (act : State → State) : Prop :=
  ∀ (s : State) (q : SeqState), (act s).st = s.st ∧ act (s.withSt q) = (act s).withSt q

/-- The operation does not look at ST: it leaves it alone, or it starts a cycle, from Configuring on. -/
def BlindToSt (act : State → State) : Prop :=
  ∀ (s : State) (q : SeqState), ((act s).st = s.st ∧ act (s.withSt q) = (act s).withSt q) ∨
    ((act s).st = .configuring ∧ act (s.withSt q) = act s)

theorem IgnoresSt.blind {act : State → State} (h : IgnoresSt act) : BlindToSt act :=
  fun s q => .inl (h s q)

theorem IgnoresSt.comp {f g : State → State} (hg : IgnoresSt g) (hf : IgnoresSt f) :
    IgnoresSt fun s => g (f s) := by
  intro s q
  obtain ⟨hfst, hfeq⟩ := hf s q
  obtain ⟨hgst, hgeq⟩ := hg (f s) q
  exact ⟨hgst.trans hfst, (congrArg g hfeq).trans hgeq⟩

/-- A test that does not look at ST, between two operations that do not. -/
theorem IgnoresSt.ite {c : State → Prop} [DecidablePred c] (hc : ∀ s q, c (s.withSt q) ↔ c s)
    {f g : State → State} (hf : IgnoresSt f) (hg : IgnoresSt g) :
    IgnoresSt fun s => if c s then f s else g s := by
  intro s q
  simp only [hc]
  split
  · exact hf s q
  · exact hg s q

theorem ignoresSt_complete : IgnoresSt State.complete := fun _ _ => ⟨rfl, rfl⟩

theorem ignoresSt_refuse (code : Byte) : IgnoresSt (State.refuse code) := fun _ _ => ⟨rfl, rfl⟩

theorem ignoresSt_buildOp : IgnoresSt State.buildOp := fun _ _ => ⟨rfl, rfl⟩

theorem ignoresSt_decackOp : IgnoresSt State.decackOp := fun _ _ => ⟨rfl, rfl⟩

theorem ignoresSt_nextfreeOp : IgnoresSt State.nextfreeOp := fun _ _ => ⟨rfl, rfl⟩

theorem ignoresSt_id2bOp : IgnoresSt State.id2bOp :=
  .ite (fun _ _ => Iff.rfl) (ignoresSt_refuse _) fun _ _ => ⟨rfl, rfl⟩

/-- Writing a record does not look at ST where making it does not. -/
theorem ignoresSt_writeRecord {rec : TemplateCopy → State → List Byte} {copy : State → TemplateCopy}
    (hrec : ∀ c s q, rec c (s.withSt q) = rec c s) (hcopy : ∀ s q, copy (s.withSt q) = copy s) :
    IgnoresSt fun s => s.writeRecord (rec (copy s) s) (copy s) := by
  intro s q
  simp only [hrec, hcopy, State.writeRecord_eq, true_and]
  rfl

theorem ignoresSt_enctplOp : IgnoresSt State.enctplOp :=
  .ite (fun _ _ => Iff.rfl) (ignoresSt_refuse _) <|
  .ite (fun _ _ => Iff.rfl) (ignoresSt_refuse _) <|
  .ite (fun _ _ => Iff.rfl) (ignoresSt_refuse _) <|
  .ite (fun _ _ => Iff.rfl)
    (ignoresSt_writeRecord (rec := fun c s => recordB s.idIn.toNat c) (fun _ _ _ => rfl) fun _ _ => rfl)
    (ignoresSt_writeRecord (rec := fun c s => recordA s.idIn.toNat c) (fun _ _ _ => rfl) fun _ _ => rfl)

theorem ignoresSt_decdirOp : IgnoresSt State.decdirOp :=
  .ite (fun _ _ => Iff.rfl) (ignoresSt_refuse _) fun _ _ => ⟨rfl, rfl⟩

theorem ignoresSt_foldl_flipRow (rows : List Nat) : IgnoresSt fun s => rows.foldl State.flipRow s := by
  induction rows with
  | nil => exact fun _ _ => ⟨rfl, rfl⟩
  | cons i rows ih => exact ih.comp (f := fun s => s.flipRow i) fun _ _ => ⟨rfl, rfl⟩

theorem ignoresSt_flipimgOp : IgnoresSt State.flipimgOp :=
  .ite (fun _ _ => Iff.rfl) (ignoresSt_refuse _) (ignoresSt_complete.comp (ignoresSt_foldl_flipRow _))

/-- RUN refused leaves ST alone, RUN accepted moves to Configuring (R190, R191). -/
theorem blindToSt_runOp : BlindToSt State.runOp := by
  intro s q
  cases h : s.runRefusal with
  | some code =>
    have h' : (s.withSt q).runRefusal = some code := h
    rw [State.runOp_of_refused h, State.runOp_of_refused h']
    exact .inl (ignoresSt_refuse code s q)
  | none =>
    have h' : (s.withSt q).runRefusal = none := h
    rw [State.runOp_of_accepted h, State.runOp_of_accepted h', State.runAccept_eq, State.runAccept_eq]
    exact .inr ⟨rfl, rfl⟩

theorem blindToSt_issue (cmd : Byte) (a : FrameArgs) :
    BlindToSt fun s => (s.loadOperands cmd a).runOp :=
  fun s q => blindToSt_runOp (s.loadOperands cmd a) q

/-- The gate reads BUSY, not ST (R25). -/
theorem BlindToSt.whenIdle {act : State → State} (h : BlindToSt act) : BlindToSt (State.whenIdle act) := by
  intro s q
  cases hb : s.busy with
  | true =>
    rw [State.whenIdle_of_busy hb, State.whenIdle_of_busy (s := s.withSt q) hb]
    exact .inl ⟨rfl, rfl⟩
  | false =>
    rw [State.whenIdle_of_idle hb, State.whenIdle_of_idle (s := s.withSt q) hb]
    exact h s q

/-- No instruction looks at ST. -/
theorem exec_blindToSt (i : Instr) : ∃ act, BlindToSt act ∧ ∀ s, exec i s = .next (act s) := by
  cases i with
  | build => exact ⟨_, ignoresSt_buildOp.blind.whenIdle, fun _ => rfl⟩
  | run => exact ⟨_, blindToSt_runOp.whenIdle, fun _ => rfl⟩
  | id2b => exact ⟨_, ignoresSt_id2bOp.blind.whenIdle, fun _ => rfl⟩
  | decack => exact ⟨_, ignoresSt_decackOp.blind.whenIdle, fun _ => rfl⟩
  | enctpl => exact ⟨_, ignoresSt_enctplOp.blind.whenIdle, fun _ => rfl⟩
  | decdir => exact ⟨_, ignoresSt_decdirOp.blind.whenIdle, fun _ => rfl⟩
  | nextfree => exact ⟨_, ignoresSt_nextfreeOp.blind.whenIdle, fun _ => rfl⟩
  | flipimg => exact ⟨_, ignoresSt_flipimgOp.blind.whenIdle, fun _ => rfl⟩
  | _ a => exact ⟨_, (blindToSt_issue _ a).whenIdle, fun _ => rfl⟩

/-- Settles O13: no instruction looks at ST, and one that writes it writes Configuring. -/
theorem failedActsAsIdle : Obligations.FailedActsAsIdle := by
  intro i s hs
  obtain ⟨act, hblind, hexec⟩ := exec_blindToSt i
  refine ⟨act s, act (s.withSt .idle), hexec s, hexec _, ?_⟩
  rcases hblind s .idle with ⟨hst, heq⟩ | ⟨hst, heq⟩ <;> rw [heq]
  · exact ⟨rfl, .inl ⟨hst.trans hs, rfl⟩⟩
  · exact ⟨rfl, .inr ⟨hst, hst⟩⟩

end Sys2Proof.Machine
end

section
/-! PROOFS. The end of the acknowledgment (`44_device_facade.md` R195 to R198) and the whole cycle of the six
commands that have no payload (R206 to R211). -/

namespace Sys2Proof.Machine

/-! ### The chunk that completes the acknowledgment -/

/-- A complete acknowledgment with a device error ends the cycle (R196). -/
theorem State.ackComplete_of_error {s : State} (he : (s.ackDecode s.lcmd).errcode ≠ 0) :
    s.ackComplete = (s.ackDecode s.lcmd).deviceErrorEnd :=
  if_pos he

/-- One without error ends the cycle where no payload is left to wait for (R197). -/
theorem State.ackComplete_of_payloadComplete {s : State} (he : (s.ackDecode s.lcmd).errcode = 0)
    (hp : (s.ackDecode s.lcmd).payloadComplete = true) :
    s.ackComplete = (s.ackDecode s.lcmd).normalEnd :=
  (if_neg (not_not.2 he)).trans (if_pos hp)

/-- Otherwise the payload wait begins (R195). -/
theorem State.ackComplete_of_payloadPending {s : State} (he : (s.ackDecode s.lcmd).errcode = 0)
    (hp : (s.ackDecode s.lcmd).payloadComplete = false) : s.ackComplete =
    { s.ackDecode s.lcmd with pretry := 0, wtimer := 0, st := .awaitingPayload } :=
  (if_neg (not_not.2 he)).trans (if_neg (ne_true_of_eq_false hp))

/-- A chunk that brings the acknowledgment to twelve bytes is stored and then decided on (R138). -/
theorem State.onChunkAck_of_complete {s : State} {bs : List Byte} (h : 12 ≤ s.rlen.toNat + bs.length) :
    s.onChunkAck bs = (s.store bs).ackComplete := by
  obtain ⟨hrlen, -⟩ := chunkStoredInOrder s bs
  exact if_pos (by omega)

/-- Settles O35: the three outcomes of a complete acknowledgment, whose storing and decoding leave EVT and
the logs. -/
theorem ackCompleteDecidesCycle : Obligations.AckCompleteDecidesCycle := by
  intro s b bs es hst hfull hs
  have hstep : step s = .next ((s.withInbox es).store (b :: bs)).ackComplete := by
    rw [step_rxChunk_of_awaitingAck hst hs, State.onChunkAck_of_complete hfull]
  refine ⟨_, hstep, ?_⟩
  intro d
  have hd : d = ((s.withInbox es).store (b :: bs)).ackDecode ((s.withInbox es).store (b :: bs)).lcmd := by
    rw [State.lcmd_store]
    rfl
  obtain ⟨hevt, hevlog, hport⟩ : d.evt = s.evt ∧ d.evlog = s.evlog ∧ d.portlog = s.portlog := by
    rw [hd, State.ackDecode_eq, State.store_frame]
    exact ⟨rfl, rfl, rfl⟩
  rw [← hevt, ← hevlog, ← hport]
  refine ⟨fun he => ?error, fun he hall => ?complete, fun he hmore => ?pending⟩
  case error => rw [State.ackComplete_of_error (hd ▸ he), ← hd, State.deviceErrorEnd_eq]
  case complete =>
    have hp : d.payloadComplete = true := decide_eq_true hall
    rw [State.ackComplete_of_payloadComplete (hd ▸ he) (hd ▸ hp), ← hd, State.normalEnd_eq]
  case pending =>
    have hp : d.payloadComplete = false := State.payloadComplete_eq_false.2 hmore
    rw [State.ackComplete_of_payloadPending (hd ▸ he) (hd ▸ hp), ← hd]

/-! ### The cycle of a command without payload -/

theorem txlog_commandSent {c : Command} (hc : c ≠ .baud) (hput : c ≠ .putTemplate) (a : FrameArgs)
    (s : State) : (s.commandSent c a).txlog = s.txlog ++ encode (c.instr a) := by
  have hcmd : c.byte ≠ 0x71 := Command.byte_injective.ne hput
  have hsent : (s.loadOperands c.byte a).runAccept.sendBytes = frameBytes c.byte a :=
    sendBytes_runAccept (s := s.loadOperands c.byte a) hcmd
  rw [commandSent_of_ne_baud hc, encode_commandInstr, ← hsent]
  rfl

/-- What twelve bytes received as an acknowledgment leave in ACK, RLEN and the decode outputs, for a command
without payload (R110, R114, R116). -/
structure State.HoldsAck (ack : List Byte) (d : State) : Prop where
  bytes : d.bytesFrom .ack 0 12 = ack
  rlen : d.rlen = 12
  errcode : d.errcode = ack.getD 2 0
  declen : d.declen = 0
  param2 : d.param2.toNat = (pairval (ack.getD d.cfg.ackP2Lo 0) (ack.getD d.cfg.ackP2Hi 0)).1

/-- Twelve bytes that open a response stand in ACK (R139). -/
theorem State.bytesFrom_ack_store_of_zero {s : State} (h : s.rlen.toNat = 0) {bs : List Byte}
    (hlen : bs.length = 12) : (s.store bs).bytesFrom .ack 0 12 = bs := by
  apply List.ext_getElem ((State.length_bytesFrom ..).trans hlen.symm)
  intro i hi hi'
  have hbyte : (s.store bs).byteAt .ack i = bs[i] := by
    rw [State.byteAt_ack_store_of_zero h (by omega) hi' (by omega), List.getD_eq_getElem _ _ hi']
  simp only [State.bytesFrom, List.getElem_map, List.getElem_range, Nat.zero_add, hbyte]

theorem State.holdsAck_store_ackDecode {w : State} {ack : List Byte} {c : Byte} (hzero : w.rlen.toNat = 0)
    (hack : ack.length = 12) (hlist : c ≠ 0x7D) (htemplate : c ≠ 0x73) (himage : c ≠ 0x43) :
    ((w.store ack).ackDecode c).HoldsAck ack := by
  have hbyte : ∀ i, i < 12 → (w.store ack).byteAt .ack i = ack.getD i 0 := fun i hi =>
    State.byteAt_ack_store_of_zero hzero (by omega) (by omega) hi
  refine ⟨State.bytesFrom_ack_store_of_zero hzero hack, ?rlen, hbyte 2 (by omega), ?declen, ?param2⟩
  case rlen => exact BitVec.eq_of_toNat_eq ((State.toNat_rlen_store_of_zero hzero (by omega)).trans hack)
  case declen =>
    exact BitVec.eq_of_toNat_eq ((State.toNat_declen_ackDecode _ c).trans
      (declaredLength_of_no_payload hlist htemplate himage ..))
  case param2 =>
    rw [State.toNat_param2_ackDecode, State.ackPair2, State.ackPair, hbyte _ (Fin.isLt _),
      hbyte _ (Fin.isLt _)]
    rfl

/-- The registers that hold an acknowledgment are none of those an end writes. -/
theorem SameButEnd.holdsAck {d t : State} (e : SameButEnd d t) {ack : List Byte} (h : d.HoldsAck ack) :
    t.HoldsAck ack := by
  rw [e]
  exact ⟨h.bytes, h.rlen, h.errcode, h.declen, h.param2⟩

theorem SameButEnd.cfg_txlog_inbox {d t : State} (e : SameButEnd d t) :
    t.cfg = d.cfg ∧ t.txlog = d.txlog ∧ t.inbox = d.inbox := by
  rw [e]
  exact ⟨rfl, rfl, rfl⟩

/-- With no payload declared a complete acknowledgment ends the cycle, with (OK, 0) or with the device's
error code (R196, R197). -/
theorem State.ackComplete_of_declen_zero {s d : State} (hd : s.ackDecode s.lcmd = d) (hp : d.declen = 0) :
    s.ackComplete.st = .idle ∧ s.ackComplete.busy = false ∧
      s.ackComplete.resultClass = (if d.errcode = 0 then .ok else .deviceError) ∧
      s.ackComplete.resultCode = d.errcode ∧ SameButEnd d s.ackComplete := by
  subst hd
  by_cases he : (s.ackDecode s.lcmd).errcode = 0
  · have hall : (s.ackDecode s.lcmd).payloadComplete = true :=
      decide_eq_true (by rw [hp]; exact Nat.zero_le _)
    rw [State.ackComplete_of_payloadComplete he hall, if_pos he]
    exact ⟨rfl, rfl, rfl, he.symm, sameButEnd_normalEnd _⟩
  · rw [State.ackComplete_of_error he, if_neg he]
    exact ⟨rfl, rfl, rfl, rfl, sameButEnd_deviceErrorEnd _⟩

/-- The six commands of R206 to R211. -/
def ackOnlyCommands : List Command := [.status, .enrollStart, .enrollFinish, .delete, .verify, .identify]

theorem ne_of_mem_ackOnlyCommands {c c' : Command} (hc : c ∈ ackOnlyCommands) (hc' : c' ∉ ackOnlyCommands) :
    c ≠ c' := fun h => hc' (h ▸ hc)

/-- The run of such a command over its four events: the frame is sent, the twelve bytes are stored and
decide the cycle. -/
theorem runFor_ackOnly {s : State} {c : Command} {a : FrameArgs} {f : Vector Byte 12} {b : Byte}
    {bs : List Byte} {es : List EnvEvent} (hc : c ∈ ackOnlyCommands) (hb : s.busy = false)
    (hf : f.toList = encode (c.instr a)) (hbs : bs.length = 11)
    (hs : s.inbox = .hostCommand f :: .tpOpenOk :: .txWritten :: .rxChunk b bs :: es) :
    runFor 4 s = .next (((s.commandSent c a).withInbox es).store (b :: bs)).ackComplete := by
  have hbaud : c ≠ .baud := ne_of_mem_ackOnlyCommands hc (by decide)
  have hput : c ≠ .putTemplate := ne_of_mem_ackOnlyCommands hc (by decide)
  have himage : c ≠ .getImage := ne_of_mem_ackOnlyCommands hc (by decide)
  have haccept : (s.loadOperands c.byte a).runRefusal = none :=
    runRefusal_loadOperands a (fun h => absurd h hput) fun h => absurd h himage
  have hchunk : step ((s.commandSent c a).withInbox (.rxChunk b bs :: es)) =
      .next (((s.commandSent c a).withInbox es).onChunkAck (b :: bs)) :=
    step_rxChunk_of_awaitingAck (es := es) (st_commandSent hbaud a s) rfl
  have hfull : 12 ≤ ((s.commandSent c a).withInbox es).rlen.toNat + (b :: bs).length := by
    rw [List.length_cons, hbs]
    exact Nat.le_add_left ..
  rw [runFor_commandSent hb hf haccept hs 1, runFor_one, hchunk, State.onChunkAck_of_complete hfull]

/-- Settles O42: the acknowledgment decodes to no payload, so the chunk that completes it ends the cycle. -/
theorem ackOnlyCycleReturnsErrorCode : Obligations.AckOnlyCycleReturnsErrorCode := by
  intro s a i f b bs es hmem hb hf hbs hs
  obtain ⟨c, hc, rfl⟩ : ∃ c ∈ ackOnlyCommands, c.instr a = i := List.mem_map.1 hmem
  have hbaud : c ≠ .baud := ne_of_mem_ackOnlyCommands hc (by decide)
  have hput : c ≠ .putTemplate := ne_of_mem_ackOnlyCommands hc (by decide)
  have hbyte : ∀ c' ∉ ackOnlyCommands, c.byte ≠ c'.byte := fun c' hc' =>
    Command.byte_injective.ne (ne_of_mem_ackOnlyCommands hc hc')
  have hack : (b :: bs).length = 12 := by rw [List.length_cons, hbs]
  let w := (s.commandSent c a).withInbox es
  let d := (w.store (b :: bs)).ackDecode c.byte
  have hd : (w.store (b :: bs)).ackDecode (w.store (b :: bs)).lcmd = d := by
    rw [State.lcmd_store, show w.lcmd = c.byte from lcmd_commandSent hbaud a s]
  have hholds : d.HoldsAck (b :: bs) :=
    State.holdsAck_store_ackDecode (congrArg BitVec.toNat (rlen_commandSent hbaud a s)) hack
      (hbyte .list (by decide)) (hbyte .getTemplate (by decide)) (hbyte .getImage (by decide))
  obtain ⟨hst, hbusy, hclass, hcode, hsame⟩ := State.ackComplete_of_declen_zero hd hholds.declen
  obtain ⟨hbytes, hrlen, herr, hdeclen, hparam2⟩ := hsame.holdsAck hholds
  obtain ⟨hcfg, htxlog, hinbox⟩ := hsame.cfg_txlog_inbox
  have hkept : d.cfg = w.cfg ∧ d.txlog = w.txlog ∧ d.inbox = w.inbox := by
    rw [show d = _ from State.ackDecode_eq _ _, State.store_frame]
    exact ⟨rfl, rfl, rfl⟩
  obtain ⟨hcfg', htxlog', hinbox'⟩ := hkept
  rw [hholds.errcode] at hclass hcode
  rw [hcfg, hcfg', show w.cfg = s.cfg from cfg_commandSent hbaud a s] at hparam2
  exact ⟨_, runFor_ackOnly hc hb hf hbs hs, hst, hbusy, hbytes, hrlen, herr, hdeclen, hclass, hcode, hparam2,
    (htxlog.trans htxlog').trans (txlog_commandSent hbaud hput a s), hinbox.trans hinbox'⟩

end Sys2Proof.Machine
end

section
/-! PROOFS. The events (`60_exceptions.md` R240, R241, `44_device_facade.md` R196): every step keeps each
pending bit of EVT backed by EVLOG. -/

namespace Sys2Proof.Machine

/-! ### What the events invariant reads -/

/-- What leaves EVLOG, and sets no bit of EVT, keeps the invariant. -/
theorem State.EventsLegal.of_evt_subset {s t : State} (h : s.EventsLegal) (hlog : t.evlog = s.evlog)
    (hevt : ∀ k : EvKind, t.evt &&& k.mask ≠ 0 → s.evt &&& k.mask ≠ 0) : t.EventsLegal where
  logged k hk := hlog ▸ h.logged k (hevt k hk)
  codes := hlog ▸ h.codes

/-- The fields the events invariant reads. -/
def State.events (s : State) : BitVec 4 × List (EvKind × Option Byte) := (s.evt, s.evlog)

theorem State.EventsLegal.of_events_eq {s t : State} (h : s.EventsLegal) (e : t.events = s.events) :
    t.EventsLegal := by
  simp only [State.events, Prod.mk.injEq] at e
  obtain ⟨hevt, hlog⟩ := e
  exact h.of_evt_subset hlog fun k hk => hevt ▸ hk

theorem State.events_store (s : State) (bs : List Byte) : (s.store bs).events = s.events := by
  rw [State.store_frame]; rfl

theorem State.events_acknowledged {s d : State} {bs : List Byte} {c : Byte}
    (hd : d = (s.store bs).ackDecode c) : d.events = s.events := by
  subst hd
  exact s.events_store bs

theorem Loaded.events_eq {s v : State} (h : Loaded s v) : v.events = s.events := by
  cases h <;> rfl

/-! ### Bits of EVT -/

/-- Two kinds of event have different bits (R19). -/
theorem EvKind.mask_and_mask_of_ne {k k' : EvKind} (h : k ≠ k') : k.mask &&& k'.mask = 0#4 := by
  cases k <;> cases k' <;> first | rfl | exact absurd rfl h

/-- An event sets its own bit alone. -/
theorem EvKind.and_mask_of_or_mask {k k' : EvKind} (h : k ≠ k') (e : BitVec 4) :
    (e ||| k.mask) &&& k'.mask = e &&& k'.mask := by
  rw [BitVec.and_comm, BitVec.and_or_distrib_left, BitVec.and_comm k'.mask k.mask,
    EvKind.mask_and_mask_of_ne h, BitVec.or_zero, BitVec.and_comm]

/-- A write-1-to-clear write sets no bit (R19). -/
theorem and_mask_ne_zero_of_clear {e v m : BitVec 4} (h : (e &&& ~~~v) &&& m ≠ 0) : e &&& m ≠ 0 := by
  rintro (hzero : e &&& m = 0#4)
  refine h (?_ : _ = 0#4)
  rw [BitVec.and_assoc, BitVec.and_comm (~~~v) m, ← BitVec.and_assoc, hzero, BitVec.zero_and]

theorem State.EventsLegal.regStore {s : State} (h : s.EventsLegal) (r : HostReg) (v : BusWord) :
    (s.regStore r v).EventsLegal := by
  cases r with
  | evt => exact h.of_evt_subset rfl fun _ => and_mask_ne_zero_of_clear
  | _ => exact h.of_events_eq rfl

/-! ### Events and ends -/

/-- An event is logged where its bit is set; a DEVERR must carry a non-zero code (R240, R241). -/
theorem State.EventsLegal.emit {s : State} (h : s.EventsLegal) {k : EvKind} {code : Option Byte}
    (hcode : k = .deverr → ∃ b, code = some b ∧ b ≠ 0) : (s.emit k code).EventsLegal where
  logged k' hk := by
    by_cases hne : k = k'
    · subst hne
      exact ⟨code, List.mem_append_right _ List.mem_cons_self⟩
    · rw [State.emit_evt, EvKind.and_mask_of_or_mask hne] at hk
      obtain ⟨c, hc⟩ := h.logged k' hk
      exact ⟨c, List.mem_append_left _ hc⟩
  codes c hc := by
    rcases List.mem_append.1 hc with hold | hnew
    · exact h.codes c hold
    · obtain ⟨rfl, rfl⟩ := Prod.mk.inj (List.mem_singleton.1 hnew)
      exact hcode rfl

theorem State.EventsLegal.complete {s : State} (h : s.EventsLegal) : s.complete.EventsLegal :=
  (h.of_events_eq (t := s.setResult .ok 0) rfl).emit nofun

theorem State.EventsLegal.refuse {s : State} (h : s.EventsLegal) (c : Byte) : (s.refuse c).EventsLegal :=
  (h.of_events_eq (t := s.setResult .illegalRequest c) rfl).emit nofun

theorem State.EventsLegal.endCycle {s : State} (h : s.EventsLegal) (q : SeqState) (r : ResultClass)
    (c : Byte) : (s.endCycle q r c).EventsLegal := by
  have hclosed : ({ (s.pulse .tpClose).setResult r c with st := q, busy := false } : State).EventsLegal :=
    h.of_events_eq rfl
  exact hclosed.emit nofun

theorem State.EventsLegal.normalEnd {s : State} (h : s.EventsLegal) : s.normalEnd.EventsLegal :=
  h.endCycle _ _ _

/-- The DEVERR event carries the error code of the acknowledgment, which is not 0 (R196). -/
theorem State.EventsLegal.deviceErrorEnd {s : State} (h : s.EventsLegal) (he : s.errcode ≠ 0) :
    s.deviceErrorEnd.EventsLegal :=
  (h.emit fun _ => ⟨_, rfl, he⟩).endCycle _ _ _

theorem State.EventsLegal.markFault {s : State} (h : s.EventsLegal) (c : ResultClass) :
    (s.markFault c).EventsLegal := by
  have hmarked : ({ s with degraded := s.degraded || c.degrades } : State).EventsLegal := h.of_events_eq rfl
  unfold State.markFault
  split
  · exact hmarked.emit nofun
  · exact hmarked

theorem State.EventsLegal.raiseFault {s : State} (h : s.EventsLegal) (c : ResultClass) :
    (s.raiseFault c).EventsLegal :=
  (h.markFault c).endCycle _ _ _

/-! ### Every step -/

/-- After Reset no bit is pending and nothing is logged (R30). -/
theorem eventsLegal_onReset (s : State) : s.onReset.EventsLegal :=
  eventsLegal_reset.of_events_eq rfl

/-- Every reaction keeps the events invariant: a bit is set only with a logged event, and a DEVERR is raised
only for a non-zero error code. -/
theorem Reaction.keeps_eventsLegal {s t : State} {e : EnvEvent} (hr : Reaction s e t)
    (h : s.EventsLegal) : t.EventsLegal := by
  cases hr with
  | ignored => exact h
  | refused _ _ _ v hv c => exact (h.of_events_eq hv.events_eq).refuse c
  | accepted _ _ _ v hv =>
    rw [State.runAccept_eq]
    exact h.of_events_eq hv.events_eq
  | build | id2b | decack | enctpl | decdir | nextfree | flipimg =>
    refine State.EventsLegal.complete ?_
    exact h.of_events_eq rfl
  | regWrite r n v => exact h.regStore r v
  | bufWrite => exact h.of_events_eq (by simp [State.events])
  | openFail => exact h.raiseFault _
  | writeTimeout | ackTimeout | payloadTimeout =>
    refine State.EventsLegal.raiseFault ?_ _
    exact h.of_events_eq rfl
  | writtenBaud => exact h.normalEnd
  | chunkAck | chunkPayload => exact h.of_events_eq (s.events_store _)
  | ackError _ _ _ d hd _ he => exact (h.of_events_eq (State.events_acknowledged hd)).deviceErrorEnd he
  | ackEnd _ _ _ d hd => exact (h.of_events_eq (State.events_acknowledged hd)).normalEnd
  | ackPayload _ _ _ d hd => exact (h.of_events_eq (State.events_acknowledged hd)).of_events_eq rfl
  | payloadEnd => exact (h.of_events_eq (s.events_store _)).normalEnd
  | presence => exact h.emit nofun
  | reset => exact eventsLegal_onReset s
  | flagged | read | openOk | written | tickSending | tickWindow | windowAck | windowUnbounded
  | windowPayload => exact h.of_events_eq rfl

/-- Settles O59: a step takes an event off the queue, and every reaction to it keeps the invariant. -/
theorem stepKeepsEventsLegal : Obligations.StepKeepsEventsLegal := by
  intro s t h hstep
  rcases step_cases hstep with ⟨_, rfl⟩ | ⟨e, es, _, hr⟩
  · exact h
  · exact hr.keeps_eventsLegal (h.of_events_eq rfl)

end Sys2Proof.Machine
end

section
/-! PROOFS. The asynchronous events (`60_exceptions.md` R236, R243): what a presence edge does, and the order in
which the events of one clock cycle join the queue. -/

namespace Sys2Proof.Machine

/-! ### Presence -/

theorem step_presenceEdge {s : State} {es : List EnvEvent} (hs : s.inbox = .presenceEdge :: es) :
    step s = .next (s.withInbox es).onPresence :=
  step_of_word_none hs rfl

/-- With a presence source an edge emits PRESENCE (R243). -/
theorem State.onPresence_of_hasPresence {s : State} (h : s.cfg.hasPresence = true) :
    s.onPresence = s.emit .presence none :=
  if_pos h

/-- Without one it has no effect (R243). -/
theorem State.onPresence_of_not_hasPresence {s : State} (h : s.cfg.hasPresence = false) :
    s.onPresence = s :=
  if_neg (ne_true_of_eq_false h)

/-- Settles O48: the step is `onPresence`, which emits PRESENCE or does nothing. -/
theorem presenceEdgeOnlyNotifies : Obligations.PresenceEdgeOnlyNotifies := by
  intro s es hs
  refine ⟨fun hsource => ?source, fun hnone => ?none⟩
  case source =>
    rw [step_presenceEdge hs, State.onPresence_of_hasPresence (s := s.withInbox es) hsource]
    rfl
  case none =>
    rw [step_presenceEdge hs, State.onPresence_of_not_hasPresence (s := s.withInbox es) hnone]
    rfl

/-! ### Arbitration -/

/-- No event of the queue stands behind one of higher rank (R236). -/
def RankSorted (es : List EnvEvent) : Prop := es.Pairwise fun e f => e.rank ≤ f.rank

theorem rankSorted_of_rank_eq {es : List EnvEvent} {n : Nat} (h : ∀ e ∈ es, e.rank = n) : RankSorted es :=
  List.pairwise_of_forall_mem_list fun e he f hf => ((h e he).trans (h f hf).symm).le

theorem insertByRank_perm (e : EnvEvent) (q : List EnvEvent) : (insertByRank e q).Perm (e :: q) := by
  induction q with
  | nil => exact .refl _
  | cons f q ih =>
    rw [insertByRank]
    split
    · exact .refl _
    · exact (ih.cons f).trans (.swap e f q)

theorem rankSorted_insertByRank {q : List EnvEvent} (h : RankSorted q) (e : EnvEvent) :
    RankSorted (insertByRank e q) := by
  induction q with
  | nil => exact List.pairwise_singleton _ e
  | cons f q ih =>
    obtain ⟨hf, hq⟩ := List.pairwise_cons.1 h
    rw [insertByRank]
    split
    next hlt =>
      refine List.pairwise_cons.2 ⟨List.forall_mem_cons.2 ⟨hlt.le, fun g hg => ?_⟩, h⟩
      exact hlt.le.trans (hf g hg)
    next hge =>
      refine List.pairwise_cons.2 ⟨fun g hg => ?_, ih hq⟩
      rcases List.mem_cons.1 ((insertByRank_perm e q).mem_iff.1 hg) with rfl | hg
      · exact not_lt.1 hge
      · exact hf g hg

/-- An event outranked by none of those that stand goes last. -/
theorem insertByRank_last {e : EnvEvent} {q : List EnvEvent} (h : ∀ f ∈ q, f.rank ≤ e.rank) :
    insertByRank e q = q ++ [e] := by
  induction q with
  | nil => rfl
  | cons f q ih =>
    obtain ⟨hf, hq⟩ := List.forall_mem_cons.1 h
    rw [insertByRank, if_neg hf.not_gt, ih hq, List.cons_append]

/-- An event that outranks all those that stand goes first. -/
theorem insertByRank_first {e : EnvEvent} {q : List EnvEvent} (h : ∀ f ∈ q, e.rank < f.rank) :
    insertByRank e q = e :: q := by
  cases q with
  | nil => rfl
  | cons f q => exact if_pos (h f List.mem_cons_self)

theorem arbitrate_concat (es : List EnvEvent) (e : EnvEvent) :
    arbitrate (es ++ [e]) = insertByRank e (arbitrate es) :=
  List.foldl_concat ..

theorem arbitrate_perm (es : List EnvEvent) : (arbitrate es).Perm es := by
  induction es using List.reverseRecOn with
  | nil => exact .refl _
  | append_singleton es e ih =>
    rw [arbitrate_concat]
    exact (insertByRank_perm e _).trans ((ih.cons e).trans (List.perm_append_singleton e es).symm)

theorem rankSorted_arbitrate (es : List EnvEvent) : RankSorted (arbitrate es) := by
  induction es using List.reverseRecOn with
  | nil => exact .nil
  | append_singleton es e ih =>
    rw [arbitrate_concat]
    exact rankSorted_insertByRank ih e

/-- Events that arrive in the order of their ranks are taken as they came. -/
theorem arbitrate_of_rankSorted {es : List EnvEvent} (h : RankSorted es) : arbitrate es = es := by
  induction es using List.reverseRecOn with
  | nil => rfl
  | append_singleton es e ih =>
    obtain ⟨hes, -, hlast⟩ := List.pairwise_append.1 h
    rw [arbitrate_concat, ih hes, insertByRank_last fun f hf => hlast f hf e List.mem_cons_self]

/-- Events of which each outranks all before it are taken in the reverse of their order, ahead of what came in
the order of the ranks. -/
theorem arbitrate_append_of_falling {sorted falling : List EnvEvent} (hsorted : RankSorted sorted)
    (hfalling : falling.Pairwise fun e f => f.rank < e.rank)
    (hbelow : ∀ e ∈ falling, ∀ f ∈ sorted, e.rank < f.rank) :
    arbitrate (sorted ++ falling) = falling.reverse ++ sorted := by
  induction falling using List.reverseRecOn with
  | nil => simpa using arbitrate_of_rankSorted hsorted
  | append_singleton falling e ih =>
    obtain ⟨hinit, -, hlast⟩ := List.pairwise_append.1 hfalling
    have hbefore : ∀ f ∈ falling.reverse ++ sorted, e.rank < f.rank := by
      intro f hf
      rcases List.mem_append.1 hf with hf | hf
      · exact hlast f (List.mem_reverse.1 hf) e List.mem_cons_self
      · exact hbelow e (List.mem_append_right _ List.mem_cons_self) f hf
    rw [← List.append_assoc, arbitrate_concat,
      ih hinit fun g hg => hbelow g (List.mem_append_left _ hg), insertByRank_first hbefore,
      List.reverse_concat, List.cons_append]

/-- The events of a cycle that meet an empty queue are the queue. -/
theorem State.inbox_deliver_of_nil {s : State} (hs : s.inbox = []) (es : List EnvEvent) :
    (s.deliver es).inbox = arbitrate es := by
  simp only [State.deliver, hs, List.nil_append]

/-- Settles O50: arbitration is an insertion sort, and each of the cycles named is host accesses, which
have one rank, followed by events of falling rank. -/
theorem simultaneousEventsTakenByRank : Obligations.SimultaneousEventsTakenByRank := by
  refine ⟨fun es => ⟨arbitrate_perm es, rankSorted_arbitrate es⟩, ?_⟩
  intro s b c bs n space i v f hs host others
  simp only [State.inbox_deliver_of_nil hs]
  have hfalling : others.Pairwise fun e f => f.rank < e.rank := by simp [others, EnvEvent.rank]
  have hothers : ∀ e ∈ others, e.rank < 7 := by simp [others, EnvEvent.rank]
  have hhost : ∀ e ∈ host, e.rank = 7 := by simp [host, EnvEvent.rank]
  have hcycle : ∀ hosts : List EnvEvent, (∀ e ∈ hosts, e.rank = 7) →
      arbitrate (hosts ++ others) = others.reverse ++ hosts := fun hosts hrank =>
    arbitrate_append_of_falling (rankSorted_of_rank_eq hrank) hfalling
      fun e he f hf => (hothers e he).trans_eq (hrank f hf).symm
  refine ⟨hcycle host hhost, hcycle host.reverse fun e he => hhost e (List.mem_reverse.1 he), ?chunkAndTick,
    ?writtenAndTick, ?oneHost⟩
  case chunkAndTick =>
    exact arbitrate_append_of_falling (sorted := []) .nil (by simp [EnvEvent.rank]) (by simp)
  case writtenAndTick =>
    exact arbitrate_append_of_falling (sorted := []) .nil (by simp [EnvEvent.rank]) (by simp)
  case oneHost =>
    exact arbitrate_append_of_falling (sorted := [.hostRead 0]) (List.pairwise_singleton ..)
      (by simp [EnvEvent.rank]) (by simp [EnvEvent.rank])

end Sys2Proof.Machine
end

section
/-! PROOFS. The device error kinds (`60_exceptions.md` R232, R233): no step reads ERRKIND. -/

namespace Sys2Proof.Machine

/-! ### Operations that do not read ERRKIND -/

/-- The state with another map of error kinds. -/
def State.withErrKind (m : ErrKindMap) (s : State) : State := { s with cfg := { s.cfg with errKind := m } }

/-- The operation leaves ERRKIND alone and does not look at it. -/
def IgnoresErrKind (act : State → State) : Prop :=
  ∀ (m : ErrKindMap) (s : State), act (s.withErrKind m) = (act s).withErrKind m

theorem IgnoresErrKind.comp {f g : State → State} (hg : IgnoresErrKind g) (hf : IgnoresErrKind f) :
    IgnoresErrKind fun s => g (f s) :=
  fun m s => (congrArg g (hf m s)).trans (hg m (f s))

/-- A test that does not look at ERRKIND, between two operations that do not. -/
theorem IgnoresErrKind.ite {c : State → Prop} [DecidablePred c] (hc : ∀ m s, c (s.withErrKind m) ↔ c s)
    {f g : State → State} (hf : IgnoresErrKind f) (hg : IgnoresErrKind g) :
    IgnoresErrKind fun s => if c s then f s else g s := by
  intro m s
  simp only [hc]
  split
  · exact hf m s
  · exact hg m s

theorem IgnoresErrKind.foldl {α : Type} {act : State → α → State}
    (h : ∀ a, IgnoresErrKind fun s => act s a) (as : List α) : IgnoresErrKind fun s => as.foldl act s := by
  induction as with
  | nil => exact fun _ _ => rfl
  | cons a as ih => exact ih.comp (h a)

/-- The gate reads BUSY (R25). -/
theorem IgnoresErrKind.whenIdle {act : State → State} (h : IgnoresErrKind act) :
    IgnoresErrKind (State.whenIdle act) :=
  .ite (fun _ _ => Iff.rfl) (fun _ _ => rfl) h

/-! ### Shared operations -/

theorem ignoresErrKind_complete : IgnoresErrKind State.complete := fun _ _ => rfl

theorem ignoresErrKind_refuse (code : Byte) : IgnoresErrKind (State.refuse code) := fun _ _ => rfl

theorem ignoresErrKind_endCycle (q : SeqState) (r : ResultClass) (c : Byte) :
    IgnoresErrKind (State.endCycle q r c) := fun _ _ => rfl

theorem ignoresErrKind_normalEnd : IgnoresErrKind State.normalEnd := ignoresErrKind_endCycle _ _ _

theorem ignoresErrKind_deviceErrorEnd : IgnoresErrKind State.deviceErrorEnd := fun _ _ => rfl

theorem ignoresErrKind_raiseFault (c : ResultClass) : IgnoresErrKind (State.raiseFault c) := by
  cases c <;> exact fun _ _ => rfl

theorem ignoresErrKind_writeBytes (b : Buf) (i : Nat) (bs : List Byte) :
    IgnoresErrKind (State.writeBytes b i bs) := by
  cases b <;> exact fun _ _ => rfl

theorem ignoresErrKind_regStore (r : HostReg) (v : BusWord) : IgnoresErrKind (State.regStore r v) := by
  cases r <;> exact fun _ _ => rfl

/-! ### The host operations and RUN -/

theorem ignoresErrKind_id2bOp : IgnoresErrKind State.id2bOp :=
  .ite (fun _ _ => Iff.rfl) (ignoresErrKind_refuse _) fun _ _ => rfl

/-- Writing a record does not look at ERRKIND where making it does not. -/
theorem ignoresErrKind_writeRecord {rec : TemplateCopy → State → List Byte} {copy : State → TemplateCopy}
    (hrec : ∀ c m s, rec c (s.withErrKind m) = rec c s) (hcopy : ∀ m s, copy (s.withErrKind m) = copy s) :
    IgnoresErrKind fun s => s.writeRecord (rec (copy s) s) (copy s) := by
  intro m s
  simp only [hrec, hcopy, State.writeRecord_eq]
  rfl

theorem ignoresErrKind_enctplOp : IgnoresErrKind State.enctplOp :=
  .ite (fun _ _ => Iff.rfl) (ignoresErrKind_refuse _) <|
  .ite (fun _ _ => Iff.rfl) (ignoresErrKind_refuse _) <|
  .ite (fun _ _ => Iff.rfl) (ignoresErrKind_refuse _) <|
  .ite (fun _ _ => Iff.rfl)
    (ignoresErrKind_writeRecord (rec := fun c s => recordB s.idIn.toNat c) (fun _ _ _ => rfl) fun _ _ => rfl)
    (ignoresErrKind_writeRecord (rec := fun c s => recordA s.idIn.toNat c) (fun _ _ _ => rfl) fun _ _ => rfl)

theorem ignoresErrKind_decdirOp : IgnoresErrKind State.decdirOp :=
  .ite (fun _ _ => Iff.rfl) (ignoresErrKind_refuse _) fun _ _ => rfl

theorem ignoresErrKind_flipimgOp : IgnoresErrKind State.flipimgOp :=
  .ite (fun _ _ => Iff.rfl) (ignoresErrKind_refuse _)
    (ignoresErrKind_complete.comp (.foldl (fun _ _ _ => rfl) _))

theorem ignoresErrKind_runAccept : IgnoresErrKind State.runAccept := by
  intro m s
  rw [State.runAccept_eq, State.runAccept_eq]
  rfl

/-- Of the static parameters the refusals of RUN read PBUF_CAP alone (R191). -/
theorem ignoresErrKind_runOp : IgnoresErrKind State.runOp := by
  intro m s
  cases h : s.runRefusal with
  | some code =>
    have h' : (s.withErrKind m).runRefusal = some code := h
    rw [State.runOp_of_refused h, State.runOp_of_refused h', ignoresErrKind_refuse]
  | none =>
    have h' : (s.withErrKind m).runRefusal = none := h
    rw [State.runOp_of_accepted h, State.runOp_of_accepted h', ignoresErrKind_runAccept]

theorem ignoresErrKind_issue (cmd : Byte) (a : FrameArgs) : IgnoresErrKind (State.issue cmd a) :=
  (ignoresErrKind_runOp.comp (f := State.loadOperands cmd a) fun _ _ => rfl).whenIdle

/-- No instruction looks at ERRKIND. -/
theorem exec_ignoresErrKind (i : Instr) : ∃ act, IgnoresErrKind act ∧ ∀ s, exec i s = .next (act s) := by
  cases i with
  | build => exact ⟨_, IgnoresErrKind.whenIdle (act := State.buildOp) fun _ _ => rfl, fun _ => rfl⟩
  | run => exact ⟨_, ignoresErrKind_runOp.whenIdle, fun _ => rfl⟩
  | id2b => exact ⟨_, ignoresErrKind_id2bOp.whenIdle, fun _ => rfl⟩
  | decack => exact ⟨_, IgnoresErrKind.whenIdle (act := State.decackOp) fun _ _ => rfl, fun _ => rfl⟩
  | enctpl => exact ⟨_, ignoresErrKind_enctplOp.whenIdle, fun _ => rfl⟩
  | decdir => exact ⟨_, ignoresErrKind_decdirOp.whenIdle, fun _ => rfl⟩
  | nextfree => exact ⟨_, IgnoresErrKind.whenIdle (act := State.nextfreeOp) fun _ _ => rfl, fun _ => rfl⟩
  | flipimg => exact ⟨_, ignoresErrKind_flipimgOp.whenIdle, fun _ => rfl⟩
  | _ a => exact ⟨_, ignoresErrKind_issue _ a, fun _ => rfl⟩

/-! ### Host accesses -/

theorem ignoresErrKind_hostWrite (n : Nat) (v : BusWord) : IgnoresErrKind (State.hostWrite n v) := by
  unfold State.hostWrite
  cases hostReg n with
  | none => exact IgnoresErrKind.whenIdle (act := fun s => s) fun _ _ => rfl
  | some r =>
    exact .ite (c := fun _ => r.openWhileBusy = true) (fun _ _ => Iff.rfl) (ignoresErrKind_regStore r v)
      (ignoresErrKind_regStore r v).whenIdle

/-- Of the static parameters the size of a buffer is PBUF_CAP or none (R23). -/
theorem size_withErrKind (m : ErrKindMap) (s : State) (b : Buf) :
    b.size (s.withErrKind m).cfg = b.size s.cfg := by
  cases b <;> rfl

theorem ignoresErrKind_hostBufWrite (space i : Nat) (v : Byte) :
    IgnoresErrKind (State.hostBufWrite space i v) := by
  refine IgnoresErrKind.whenIdle ?_
  unfold State.bufStore
  cases bufOfSpace space with
  | none => exact fun _ _ => rfl
  | some b =>
    exact .ite (fun m s => by rw [size_withErrKind]) (ignoresErrKind_writeBytes b i [v]) fun _ _ => rfl

theorem readBuf_withErrKind (m : ErrKindMap) (s : State) (space i : Nat) :
    (s.withErrKind m).readBuf space i = s.readBuf space i := by
  unfold State.readBuf
  cases bufOfSpace space with
  | none => rfl
  | some b => simp only [size_withErrKind]; rfl

/-! ### The transport session -/

theorem ignoresErrKind_storeByte (b : Byte) : IgnoresErrKind fun s => s.storeByte b := by
  intro m s
  have hrlen : (s.withErrKind m).rlen = s.rlen := rfl
  have hcap : (s.withErrKind m).cfg.pbufCap = s.cfg.pbufCap := rfl
  simp only [State.storeByte, hrlen, hcap]
  split
  · rfl
  · split <;> rfl

theorem ignoresErrKind_store (bs : List Byte) : IgnoresErrKind (State.store bs) :=
  IgnoresErrKind.comp (g := fun s => { s with wtimer := 0 }) (fun _ _ => rfl)
    (.foldl ignoresErrKind_storeByte bs)

theorem ignoresErrKind_ackComplete : IgnoresErrKind State.ackComplete :=
  .ite (c := fun s => (s.ackDecode s.lcmd).errcode ≠ 0) (fun _ _ => Iff.rfl) (fun _ _ => rfl) <|
  .ite (c := fun s => (s.ackDecode s.lcmd).payloadComplete) (fun _ _ => Iff.rfl) (fun _ _ => rfl)
    fun _ _ => rfl

theorem ignoresErrKind_onChunkAck (bs : List Byte) : IgnoresErrKind (State.onChunkAck bs) :=
  IgnoresErrKind.comp (g := fun r => if 12 ≤ r.rlen.toNat then r.ackComplete else r)
    (.ite (fun _ _ => Iff.rfl) ignoresErrKind_ackComplete fun _ _ => rfl) (ignoresErrKind_store bs)

theorem ignoresErrKind_onChunkPayload (bs : List Byte) : IgnoresErrKind (State.onChunkPayload bs) :=
  IgnoresErrKind.comp (g := fun r => if r.payloadComplete then r.normalEnd else r)
    (.ite (fun _ _ => Iff.rfl) ignoresErrKind_normalEnd fun _ _ => rfl) (ignoresErrKind_store bs)

theorem ignoresErrKind_onTxWritten : IgnoresErrKind State.onTxWritten :=
  .ite (fun _ _ => Iff.rfl) ignoresErrKind_normalEnd fun _ _ => rfl

theorem ignoresErrKind_onTickSending : IgnoresErrKind State.onTickSending :=
  .ite (c := fun s => (s.wtimer + 1).toNat = s.cfg.writeTimeoutTicks) (fun _ _ => Iff.rfl)
    ((ignoresErrKind_raiseFault _).comp (f := fun s => { s with wtimer := s.wtimer + 1 }) fun _ _ => rfl)
    fun _ _ => rfl

theorem ignoresErrKind_onTickAck : IgnoresErrKind State.onTickAck :=
  .ite (c := fun s => (s.wtimer + 1).toNat = s.cfg.rxWindowTicks) (fun _ _ => Iff.rfl)
    (.ite (c := fun s => (s.retry + 1).toNat = Config.ackRetryBudget) (fun _ _ => Iff.rfl)
      ((ignoresErrKind_raiseFault _).comp (f := fun s => { s with wtimer := 0, retry := s.retry + 1 })
        fun _ _ => rfl)
      fun _ _ => rfl)
    fun _ _ => rfl

theorem ignoresErrKind_onTickPayload : IgnoresErrKind State.onTickPayload :=
  .ite (c := fun s => (s.wtimer + 1).toNat = s.cfg.rxWindowTicks) (fun _ _ => Iff.rfl)
    (.ite (c := fun s => s.payloadRetryLimit = 0) (fun _ _ => Iff.rfl) (fun _ _ => rfl)
      (.ite (c := fun s => s.pretry + 1 = s.payloadRetryLimit) (fun _ _ => Iff.rfl)
        ((ignoresErrKind_raiseFault _).comp (f := fun s => { s with wtimer := 0, pretry := s.pretry + 1 })
          fun _ _ => rfl)
        fun _ _ => rfl))
    fun _ _ => rfl

theorem ignoresErrKind_onTick : IgnoresErrKind State.onTick := by
  intro m s
  have hst : (s.withErrKind m).st = s.st := rfl
  simp only [State.onTick, hst]
  cases s.st with
  | idle | failed | configuring => rfl
  | sending => exact ignoresErrKind_onTickSending m s
  | awaitingAck => exact ignoresErrKind_onTickAck m s
  | awaitingPayload => exact ignoresErrKind_onTickPayload m s

theorem ignoresErrKind_onPresence : IgnoresErrKind State.onPresence :=
  .ite (fun _ _ => Iff.rfl) (fun _ _ => rfl) fun _ _ => rfl

/-! ### One step -/

/-- The outcome with another map of error kinds in its state, where it has one. -/
def withErrKindOutcome (m : ErrKindMap) :
    Host.Outcome State Fault Refusal → Host.Outcome State Fault Refusal
  | .next t => .next (t.withErrKind m)
  | .fault f => .fault f
  | .refused r => .refused r

/-- What an event does does not depend on ERRKIND, and neither does whether it is enabled. -/
theorem react_withErrKind (m : ErrKindMap) (e : EnvEvent) (s : State) :
    (s.withErrKind m).react e = withErrKindOutcome m (s.react e) := by
  have hst : (s.withErrKind m).st = s.st := rfl
  cases e with
  | hostWrite n v => exact congrArg Host.Outcome.next (ignoresErrKind_hostWrite n v m s)
  | hostBufWrite space i v => exact congrArg Host.Outcome.next (ignoresErrKind_hostBufWrite space i v m s)
  | hostRead n => rfl
  | hostBufRead space i =>
    simp only [State.react, readBuf_withErrKind]
    rfl
  | hostCommand f => exact congrArg Host.Outcome.next (ignoresErrKind_issue f[1] (frameOperands f) m s)
  | tpOpenOk | tpOpenFail =>
    simp only [State.react, State.notEnabled, hst]
    cases s.st <;> rfl
  | txWritten =>
    simp only [State.react, State.notEnabled, hst, ignoresErrKind_onTxWritten m s]
    cases s.st <;> rfl
  | rxChunk b bs =>
    simp only [State.react, State.notEnabled, hst, ignoresErrKind_onChunkAck (b :: bs) m s,
      ignoresErrKind_onChunkPayload (b :: bs) m s]
    cases s.st <;> rfl
  | tick => exact congrArg Host.Outcome.next (ignoresErrKind_onTick m s)
  | presenceEdge => exact congrArg Host.Outcome.next (ignoresErrKind_onPresence m s)
  | reset => rfl

theorem undecoded_withErrKind (m : ErrKindMap) (err : DecodeError) (e : EnvEvent) (s : State) :
    (s.withErrKind m).undecoded err e = withErrKindOutcome m (s.undecoded err e) := by
  cases err with
  | startNotSet | unknownCommand => exact react_withErrKind m e s
  | illegalOp =>
    exact congrArg Host.Outcome.next ((ignoresErrKind_refuse illegalOpCode).whenIdle m s)
  | badLength | reservedNotZero | checksumMismatch => rfl

theorem runEvent_withErrKind (m : ErrKindMap) (e : EnvEvent) (s : State) :
    runEvent e (s.withErrKind m) = withErrKindOutcome m (runEvent e s) := by
  cases hw : e.word with
  | none => rw [runEvent_of_word_none hw, runEvent_of_word_none hw, react_withErrKind]
  | some w =>
    cases hd : decode w with
    | error err =>
      rw [runEvent_of_decode_error hw hd, runEvent_of_decode_error hw hd, undecoded_withErrKind]
    | ok i =>
      obtain ⟨act, hignores, hexec⟩ := exec_ignoresErrKind i
      rw [runEvent_of_decode_ok hw hd, runEvent_of_decode_ok hw hd, hexec, hexec, hignores]
      rfl

theorem step_withErrKind (m : ErrKindMap) (s : State) :
    step (s.withErrKind m) = withErrKindOutcome m (step s) := by
  cases hs : s.inbox with
  | nil =>
    rw [step_of_inbox_nil hs, step_of_inbox_nil (s := s.withErrKind m) hs]
    rfl
  | cons e es =>
    rw [step_of_inbox_cons hs, step_of_inbox_cons (s := s.withErrKind m) hs]
    exact runEvent_withErrKind m e (s.withInbox es)

/-- Settles O53: whatever a step does, it does with every map of error kinds. -/
theorem errKindNeverMatters : Obligations.ErrKindNeverMatters := by
  intro s m swap
  have hstep : step (swap s) = withErrKindOutcome m (step s) := step_withErrKind m s
  cases hs : step s <;> exact hstep.trans (congrArg (withErrKindOutcome m) hs)

end Sys2Proof.Machine
end

section
/-! PROOFS. What Reset leaves (`10_state.md` R30; `42_transport_session.md` R146;
`70_reset_and_hazards.md` R260, R261). -/

namespace Sys2Proof.Machine

/-- The states of a command cycle are the four that R146 and R260 list. -/
theorem SeqState.inCycle_iff_mem (q : SeqState) :
    q.inCycle = true ↔ q ∈ [SeqState.configuring, .sending, .awaitingAck, .awaitingPayload] := by
  cases q <;> decide

/-! ### The state after Reset -/

/-- STATUS packs to 0 after Reset: Idle is coded 0 and every flag is clear (R14, R17, R30). -/
theorem statusWord_onReset (s : State) : s.onReset.statusWord = 0 :=
  show State.reset.statusWord = 0 by decide

/-- RESULT packs to 0 after Reset: OK is coded 0 (R18, R30, R230). -/
theorem resultWord_onReset (s : State) : s.onReset.resultWord = 0 :=
  show State.reset.resultWord = 0 by decide

/-- After Reset every register holds 0 (R30): two are packed from fields, the X registers are elements of
a vector, and each other register is a field of its own. -/
theorem regValue_onReset (s : State) (r : HostReg) : s.onReset.regValue r = 0 := by
  cases r with
  | status => exact congrArg (BitVec.setWidth 32) (statusWord_onReset s)
  | result => exact congrArg (BitVec.setWidth 32) (resultWord_onReset s)
  | x i =>
    have hx : s.onReset.x[i] = 0 := Vector.getElem_replicate i.isLt
    exact congrArg (BitVec.setWidth 32) hx
  | _ => rfl

/-- A register reads as 0 after Reset, and so does a number that no register has (R26, R30). -/
theorem readReg_onReset (s : State) (n : Nat) : s.onReset.readReg n = 0 := by
  cases h : hostReg n with
  | none => exact readReg_of_hostReg_none h s.onReset
  | some r => exact (readReg_of_hostReg h s.onReset).trans (regValue_onReset s r)

theorem bufOf_onReset (s : State) (b : Buf) : s.onReset.bufOf b = [] := by
  cases b <;> rfl

/-- Reset closes the transport once exactly in the four states of a command cycle (R146, R260). -/
theorem portlog_onReset (s : State) : s.onReset.portlog = s.portlog ++
    (if s.st ∈ [SeqState.configuring, .sending, .awaitingAck, .awaitingPayload] then [.tpClose] else []) :=
  congrArg (s.portlog ++ ·) (if_congr s.st.inCycle_iff_mem rfl rfl)

/-! ### The step on Reset -/

/-- The step on Reset is `onReset` of the state that has taken the event, in every state. -/
theorem step_reset {s : State} {es : List EnvEvent} (h : s.inbox = .reset :: es) :
    step s = .next (s.withInbox es).onReset :=
  step_of_word_none h rfl

/-- Settles O49, from what each register, buffer and log is after Reset. -/
theorem resetRestoresTable : Obligations.ResetRestoresTable := by
  intro s es hs
  have hport := portlog_onReset (s.withInbox es)
  have hreg := readReg_onReset (s.withInbox es)
  have hbuf := bufOf_onReset (s.withInbox es)
  exact ⟨(s.withInbox es).onReset, step_reset hs, rfl, hport, rfl, rfl, rfl, rfl, rfl, rfl, hreg, rfl, rfl,
    hbuf, rfl⟩

end Sys2Proof.Machine
end
